-- ==== Sys2Proof/Word.lean ====
section
/-! DEFINITION. The machine words of CSHW-8: every register, operand, address and result is a 32-bit pattern
(spec/00_scope.md R6 and R8), and `+` and `-` on them are modulo 2^32 (R8, R123). -/

namespace Sys2Proof

/-- A 32-bit value: a register, an operand, an address, a result (R6, R8). -/
abbrev Word := BitVec 32

/-- One byte of a memory laid out in bytes (R64). -/
abbrev Byte := BitVec 8

/-- A register index. Five bits name the registers `r0` to `r31` (R20, R96). -/
abbrev RegIdx := BitVec 5

end Sys2Proof
end

