-- ==== Sys2Proof/Config.lean ====
section
/-! DEFINITION. The implementation parameters of spec/00_scope.md R6: `NREGS`, `ENTRY_PC`, `BRANCH_BASE_OFFSET`.
They are fixed before `reset()` (R267). The state carries them, so that a statement about every state is a
statement about every choice of them (log 5). The model has no free value: the spec leaves no result open. -/

namespace Sys2Proof

/-- The rows of R6 marked `parameter`. -/
structure Config where
  /-- `NREGS`, the number of general registers, 1 to 32 (D2). -/
  nregs : Nat
  /-- `ENTRY_PC`, the value of `pc` after reset (R37). -/
  entryPc : Word
  /-- `BRANCH_BASE_OFFSET`, added to every branch target (R163, D4). -/
  branchBaseOffset : Word
deriving DecidableEq, Repr

/-- The values R6 takes: 32 registers, entry 0, branch base offset 0. DESIGN CHOICE of the spec (D2, D4), log 5. -/
def Config.default : Config := { nregs := 32, entryPc := 0, branchBaseOffset := 0 }

/-- "Every rule is stated for any `NREGS` from 1 to 32" (D2). -/
def Config.wf (c : Config) : Bool := decide (1 ≤ c.nregs) && decide (c.nregs ≤ 32)

end Sys2Proof
end

