-- ==== Sys2Proof/Syntax.lean ====
section
/-! DEFINITION. The instructions: one constructor per row of spec/opcode_table.json, eight opcodes in register form
(`R`) and immediate form (`I`) (spec/30_encoding.md R99). A value of `Instr` is a whole Command record (R90): each
constructor carries all four operand fields, those its form ignores too (`immediateValue` in the register form,
`src2Index` in the immediate form, R91), because a slot holds them and `getState()` shows them. -/

namespace Sys2Proof

/-- The eight opcodes (R2). -/
inductive Opcode where
  | nop | add | sub | load | store | br | breq | brneq
deriving DecidableEq, Repr

/-- A Command (R90). Fields in the order `dstIndex`, `src1Index`, `src2Index`, `immediateValue`. -/
inductive Instr where
  | nopR (dst src1 src2 : RegIdx) (imm : Word)
  | nopI (dst src1 src2 : RegIdx) (imm : Word)
  | addR (dst src1 src2 : RegIdx) (imm : Word)
  | addI (dst src1 src2 : RegIdx) (imm : Word)
  | subR (dst src1 src2 : RegIdx) (imm : Word)
  | subI (dst src1 src2 : RegIdx) (imm : Word)
  | loadR (dst src1 src2 : RegIdx) (imm : Word)
  | loadI (dst src1 src2 : RegIdx) (imm : Word)
  | storeR (dst src1 src2 : RegIdx) (imm : Word)
  | storeI (dst src1 src2 : RegIdx) (imm : Word)
  | brR (dst src1 src2 : RegIdx) (imm : Word)
  | brI (dst src1 src2 : RegIdx) (imm : Word)
  | breqR (dst src1 src2 : RegIdx) (imm : Word)
  | breqI (dst src1 src2 : RegIdx) (imm : Word)
  | brneqR (dst src1 src2 : RegIdx) (imm : Word)
  | brneqI (dst src1 src2 : RegIdx) (imm : Word)
deriving DecidableEq, Repr

/-- The Command with the given record fields (R90). -/
def Instr.ofFields (op : Opcode) (isSrc2Immediate : Bool) (dst src1 src2 : RegIdx) (imm : Word) : Instr :=
  match op, isSrc2Immediate with
  | .nop, false => .nopR dst src1 src2 imm
  | .nop, true => .nopI dst src1 src2 imm
  | .add, false => .addR dst src1 src2 imm
  | .add, true => .addI dst src1 src2 imm
  | .sub, false => .subR dst src1 src2 imm
  | .sub, true => .subI dst src1 src2 imm
  | .load, false => .loadR dst src1 src2 imm
  | .load, true => .loadI dst src1 src2 imm
  | .store, false => .storeR dst src1 src2 imm
  | .store, true => .storeI dst src1 src2 imm
  | .br, false => .brR dst src1 src2 imm
  | .br, true => .brI dst src1 src2 imm
  | .breq, false => .breqR dst src1 src2 imm
  | .breq, true => .breqI dst src1 src2 imm
  | .brneq, false => .brneqR dst src1 src2 imm
  | .brneq, true => .brneqI dst src1 src2 imm

/-- The record field `opcode`. -/
def Instr.opcode : Instr → Opcode
  | .nopR _ _ _ _ => .nop
  | .nopI _ _ _ _ => .nop
  | .addR _ _ _ _ => .add
  | .addI _ _ _ _ => .add
  | .subR _ _ _ _ => .sub
  | .subI _ _ _ _ => .sub
  | .loadR _ _ _ _ => .load
  | .loadI _ _ _ _ => .load
  | .storeR _ _ _ _ => .store
  | .storeI _ _ _ _ => .store
  | .brR _ _ _ _ => .br
  | .brI _ _ _ _ => .br
  | .breqR _ _ _ _ => .breq
  | .breqI _ _ _ _ => .breq
  | .brneqR _ _ _ _ => .brneq
  | .brneqI _ _ _ _ => .brneq

/-- The record field `isSrc2Immediate`: true in the immediate form. -/
def Instr.isSrc2Immediate : Instr → Bool
  | .nopR _ _ _ _ => false
  | .nopI _ _ _ _ => true
  | .addR _ _ _ _ => false
  | .addI _ _ _ _ => true
  | .subR _ _ _ _ => false
  | .subI _ _ _ _ => true
  | .loadR _ _ _ _ => false
  | .loadI _ _ _ _ => true
  | .storeR _ _ _ _ => false
  | .storeI _ _ _ _ => true
  | .brR _ _ _ _ => false
  | .brI _ _ _ _ => true
  | .breqR _ _ _ _ => false
  | .breqI _ _ _ _ => true
  | .brneqR _ _ _ _ => false
  | .brneqI _ _ _ _ => true

/-- The four operand fields `(dstIndex, src1Index, src2Index, immediateValue)`, the same places in every
constructor (R90: "every instruction has the same format"). -/
def Instr.operands : Instr → RegIdx × RegIdx × RegIdx × Word
  | .nopR d a b n => (d, a, b, n)
  | .nopI d a b n => (d, a, b, n)
  | .addR d a b n => (d, a, b, n)
  | .addI d a b n => (d, a, b, n)
  | .subR d a b n => (d, a, b, n)
  | .subI d a b n => (d, a, b, n)
  | .loadR d a b n => (d, a, b, n)
  | .loadI d a b n => (d, a, b, n)
  | .storeR d a b n => (d, a, b, n)
  | .storeI d a b n => (d, a, b, n)
  | .brR d a b n => (d, a, b, n)
  | .brI d a b n => (d, a, b, n)
  | .breqR d a b n => (d, a, b, n)
  | .breqI d a b n => (d, a, b, n)
  | .brneqR d a b n => (d, a, b, n)
  | .brneqI d a b n => (d, a, b, n)

/-- The record field `dstIndex`. -/
def Instr.dstIndex (i : Instr) : RegIdx := i.operands.1

/-- The record field `src1Index`. -/
def Instr.src1Index (i : Instr) : RegIdx := i.operands.2.1

/-- The record field `src2Index`. -/
def Instr.src2Index (i : Instr) : RegIdx := i.operands.2.2.1

/-- The record field `immediateValue`, a signed 32-bit value (R91, D5). -/
def Instr.immediateValue (i : Instr) : Word := i.operands.2.2.2

/-- The NOP Command of `EMPTY`: all fields zero (R32). -/
def Instr.emptyNop : Instr := .nopR 0 0 0 0

/-- What the fetch port may hand over at the record interface, before any check: the fields of R90 with no bound
on the opcode number or the indices ("malformed Command fields are not validated by the core", R91, R100). -/
structure Record where
  /-- The opcode number of R95, or any other number. -/
  opcode : Nat
  src1Index : Nat
  src2Index : Nat
  dstIndex : Nat
  isSrc2Immediate : Bool
  immediateValue : Word
deriving DecidableEq, Repr

end Sys2Proof
end

