-- ==== Sys2Proof/WellFormed.lean ====
section
/-! DEFINITION. When a Command is well formed (spec/30_encoding.md R91) and when it has a packed word (R97, R98). -/

namespace Sys2Proof

/-- All three indices below `NREGS`, for every opcode, used or not (R91, U2). -/
def Instr.indicesBelow (nregs : Nat) (i : Instr) : Bool :=
  decide (i.dstIndex.toNat < nregs) && decide (i.src1Index.toNat < nregs) && decide (i.src2Index.toNat < nregs)

/-- The immediate is the sign extension of its low 16 bits, that is, lies in -32768 to 32767 (R97). -/
def immFits16 (imm : Word) : Bool := (imm.truncate 16).signExtend 32 == imm

/-- The Command has a packed word: `src2Index = 0` in the immediate form, `immediateValue = 0` in the register form,
and an immediate that fits 16 signed bits (R98). -/
def Instr.packable (i : Instr) : Bool :=
  if i.isSrc2Immediate then i.src2Index == 0 && immFits16 i.immediateValue else i.immediateValue == 0

/-- Well formed for the packed format: legal under `NREGS` and expressible as a word. -/
def Instr.wellFormed (nregs : Nat) (i : Instr) : Bool := i.indicesBelow nregs && i.packable

end Sys2Proof
end

