-- ==== Sys2Proof/Decode.lean ====
section
/-! DEFINITION. The two ways a Command is given and how each is checked: the packed 32-bit word
(spec/30_encoding.md R96 to R99, decision D7) with its decoder and encoder, and the raw record of the fetch port
(R90, R91, R100). Both decoders are total and reject by name (R11). -/

namespace Sys2Proof

/-- Why a word or a record is no Command: reasons of R11 (R97, R100, R101). -/
inductive DecodeError where
  /-- The opcode is not one of the eight (U1, U3). -/
  | unknownOpcode
  /-- Bit 26 set, or the register form with any of bits 15:5 set (U3). -/
  | reservedEncoding
  /-- An index not below `NREGS` (U2). -/
  | registerIndexOutOfRange
  /-- Fewer than four bytes: no word at all (R94: every instruction has the one length). -/
  | tooFewBytes
deriving DecidableEq, Repr

/-- Opcode numbers (R95): NOP 0, ADD 1, SUB 2, LOAD 3, STORE 4, BR 5, BREQ 6, BRNEQ 7; no other is an opcode. -/
def Opcode.ofNumber : Nat → Option Opcode
  | 0 => some .nop
  | 1 => some .add
  | 2 => some .sub
  | 3 => some .load
  | 4 => some .store
  | 5 => some .br
  | 6 => some .breq
  | 7 => some .brneq
  | _ => none

/-- The number of an opcode (R95), as the field `op` of R96. -/
def Opcode.number : Opcode → BitVec 4
  | .nop => 0
  | .add => 1
  | .sub => 2
  | .load => 3
  | .store => 4
  | .br => 5
  | .breq => 6
  | .brneq => 7

/-- `sext_16` (R8): a 16-bit value extended to 32 bits by its sign. -/
def sext16 (v : BitVec 16) : Word := v.signExtend 32

/-- The bits of a packed word (R96): `op = w[31:28]`. -/
def opField (w : Word) : BitVec 4 := w.extractLsb' 28 4
/-- `I = w[27]`. -/
def immFlag (w : Word) : Bool := w.getLsbD 27
/-- `z = w[26]`, reserved. -/
def reservedBit (w : Word) : Bool := w.getLsbD 26
/-- `dst = w[25:21]`. -/
def dstField (w : Word) : RegIdx := w.extractLsb' 21 5
/-- `src1 = w[20:16]`. -/
def src1Field (w : Word) : RegIdx := w.extractLsb' 16 5
/-- Register form: `w[15:5]` must be 0. -/
def zeroField (w : Word) : BitVec 11 := w.extractLsb' 5 11
/-- Register form: `src2 = w[4:0]`. -/
def src2Field (w : Word) : RegIdx := w.extractLsb' 0 5
/-- Immediate form: `imm16 = w[15:0]`. -/
def imm16Field (w : Word) : BitVec 16 := w.extractLsb' 0 16

/-- The last test of R97: every index below `NREGS`. -/
def checkIndices (nregs : Nat) (i : Instr) : Except DecodeError Instr :=
  if i.indicesBelow nregs then .ok i else .error .registerIndexOutOfRange

/-- `decode(w)` of R97, the tests in its order: opcode, bit 26, bits 15:5 of the register form, indices. -/
def decode (nregs : Nat) (w : Word) : Except DecodeError Instr :=
  match Opcode.ofNumber (opField w).toNat with
  | none => .error .unknownOpcode
  | some op =>
    if reservedBit w then .error .reservedEncoding
    else if immFlag w then
      checkIndices nregs (.ofFields op true (dstField w) (src1Field w) 0 (sext16 (imm16Field w)))
    else if zeroField w = 0 then
      checkIndices nregs (.ofFields op false (dstField w) (src1Field w) (src2Field w) 0)
    else .error .reservedEncoding

/-- The check of a Command given as a record (R91, R100): the opcode first (V10), then all three indices.
An index of 32 or more is out of range whatever `NREGS` says, which is at most 32 (D2). -/
def Record.check (nregs : Nat) (r : Record) : Except DecodeError Instr :=
  match Opcode.ofNumber r.opcode with
  | none => .error .unknownOpcode
  | some op =>
    if r.dstIndex < nregs ∧ r.src1Index < nregs ∧ r.src2Index < nregs
        ∧ r.dstIndex < 32 ∧ r.src1Index < 32 ∧ r.src2Index < 32 then
      .ok (.ofFields op r.isSrc2Immediate (BitVec.ofNat 5 r.dstIndex) (BitVec.ofNat 5 r.src1Index)
        (BitVec.ofNat 5 r.src2Index) r.immediateValue)
    else .error .registerIndexOutOfRange

/-- A Command as the record it is. -/
def Instr.toRecord (i : Instr) : Record :=
  { opcode := i.opcode.number.toNat, src1Index := i.src1Index.toNat, src2Index := i.src2Index.toNat
    dstIndex := i.dstIndex.toNat, isSrc2Immediate := i.isSrc2Immediate, immediateValue := i.immediateValue }

/-- The bits 31:16 of a packed word: `op`, `I`, 0, `dst`, `src1` (R96). -/
def packHigh (i : Instr) : BitVec 16 :=
  i.opcode.number ++ BitVec.ofBool i.isSrc2Immediate ++ (0 : BitVec 1) ++ i.dstIndex ++ i.src1Index

/-- The bits 15:0 of a packed word: `src2Index` below zeros, or `immediateValue[15:0]` (R96, R98). -/
def packLow (i : Instr) : BitVec 16 :=
  if i.isSrc2Immediate then i.immediateValue.truncate 16 else (0 : BitVec 11) ++ i.src2Index

/-- The packed word of a Command that has one (R98). -/
def encodeWord (i : Instr) : Word := packHigh i ++ packLow i

/-- The encoder: the packed word, and none for a Command that has none (R97, U7). -/
def encode (i : Instr) : Option Word := if i.packable then some (encodeWord i) else none

/-- The byte at place `k` (0 to 3) of a word laid out in bytes: place 0 holds bits 7 to 0, little-endian (R64, D12). -/
def byteOfWord (w : Word) (k : Nat) : Byte := w.extractLsb' (8 * k) 8

/-- The word of four bytes, the first at the lowest address (R64, D12). -/
def wordOfBytes (b0 b1 b2 b3 : Byte) : Word := b3 ++ b2 ++ b1 ++ b0

/-- An instruction stored as bytes, read back and decoded: the decoder on a list of bytes. -/
def decodeBytes (nregs : Nat) : List Byte → Except DecodeError (Instr × List Byte)
  | b0 :: b1 :: b2 :: b3 :: rest =>
    match decode nregs (wordOfBytes b0 b1 b2 b3) with
    | .ok i => .ok (i, rest)
    | .error e => .error e
  | _ => .error .tooFewBytes

/-- The word an opcode-table row's bits stand for: `nbits` bits of `w`, bit 0 the least significant of the one
32-bit word, every bit above `nbits` 0. -/
def tableWord (nbits w : Nat) : Word := BitVec.ofNat 32 (w % 2 ^ nbits)

/-- What the decoder reads from an opcode-table word laid out in bytes, with `NREGS = 32` (R6). -/
def decodeTableWord (nbits w : Nat) : Option Instr :=
  match decodeBytes 32 ((List.range 4).map (byteOfWord (tableWord nbits w))) with
  | .ok (i, _) => some i
  | .error _ => none

end Sys2Proof
end

