-- ==== Sys2Proof/Machine/State.lean ====
section
/-! DEFINITION. The state of the core and of the environment behind its ports (spec/10_state.md, spec/20_memory.md
R68), as plain data, the reasons a tick can stop, and the state after `reset()` (R37). -/

namespace Sys2Proof.Machine

/-- Why a fetched Command is undefined at the record interface (R100, U1, U2). The hardware's behaviour is not
defined by any source, so a stop is safe: nothing is claimed of it. -/
inductive Fault where
  /-- Raised by the fetch of a record whose opcode is not one of the eight (U1). Safe. -/
  | unknownOpcode
  /-- Raised by the fetch of a Command with an index not below `NREGS` (U2). Safe. -/
  | registerIndexOutOfRange
deriving DecidableEq, Repr

/-- Why the reference environment or the packed-word decoder refuses an input (R65, R101, U3 to U5). Each is safe:
no successor state is claimed. -/
inductive Refusal where
  /-- An instruction with no meaning in this model; raised by `exec` only. No arm raises it. Safe. -/
  | notModelled (mnemonic : String)
  /-- Raised by the fetch of a packed word with `op` 8 to 15 (U3). Safe. -/
  | unknownOpcodeWord
  /-- Raised by the fetch of a packed word with bit 26, or bits 15:5 of the register form, set (U3). Safe. -/
  | reservedEncoding
  /-- Raised by `IFetch(a)` with `a` not a multiple of 4 (U4). Safe. -/
  | misalignedInstructionAddress
  /-- Raised by `DRead(a)` or `DWrite(a, v)` with `a` not a multiple of 4 (U5). Safe. -/
  | misalignedDataAddress
deriving DecidableEq, Repr

/-- The five stages, Fetch to Write-Back (R9). -/
inductive Stage where
  | fetch | decode | execute | memory | writeBack
deriving DecidableEq, Repr

/-- A pipeline slot: the visible fields of R30 and the hidden fields `ipc`, `dstVal` of R31. -/
structure Slot where
  cmd : Instr
  src1Val : Word
  src2Val : Word
  ipc : Word
  dstVal : Word
deriving DecidableEq, Repr

/-- `EMPTY` (R32). -/
def Slot.empty : Slot := { cmd := .emptyNop, src1Val := 0, src2Val := 0, ipc := 0, dstVal := 0 }

/-- A slot as a fetch leaves it (R182): the Command and its address, operand values 0. -/
def Slot.fetched (c : Instr) (a : Word) : Slot := { cmd := c, src1Val := 0, src2Val := 0, ipc := a, dstVal := 0 }

/-- A call at one of the three ports (R60 to R62). -/
inductive PortCall where
  /-- `IFetch(a)`. -/
  | ifetch (a : Word)
  /-- `DRead(a)` with its answer: a value if ready, none if not ready. -/
  | dread (a : Word) (answer : Option Word)
  /-- `DWrite(a, v)`. -/
  | dwrite (a v : Word)
deriving DecidableEq, Repr

/-- The whole state between ticks, and inside a tick. INVENTORY.md lists each field with its rule. -/
structure State where
  /-- Parameters fixed before `reset()` (R6, R267). -/
  cfg : Config
  /-- Program counter (R23). -/
  pc : Word
  /-- General registers `x[0]` to `x[31]` (R20); those below `NREGS` exist. -/
  regs : Vector Word 32
  /-- Pipeline Register Bank (R30, R31). -/
  slotF : Slot
  slotD : Slot
  slotE : Slot
  slotM : Slot
  slotW : Slot
  /-- The latches of R33: `EXres`, `EXtaken`, `EXtarget`. -/
  exRes : Word
  exTaken : Bool
  exTarget : Word
  /-- `MEMres`, `MEMtaken`, `MEMtarget`, `MEMload` (R33). -/
  memRes : Word
  memTaken : Bool
  memTarget : Word
  memLoad : Word
  /-- `WBval` (R33). -/
  wbVal : Word
  /-- False exactly while a memory stall is active (R28). -/
  canAdvance : Bool
  /-- A load-use pair sits in Decode and Execute (R29). -/
  hazardPending : Bool
  /-- The model's own: which stage's compute step is running inside a tick (R181); rests at `fetch`. Log 1. -/
  stage : Stage
  /-- The environment's instruction memory in bytes, packed words little-endian (R64, R68). -/
  imem : List Host.Cell
  /-- Commands given as records at instruction addresses (R60, R90): those that have no packed word. Log 7. -/
  irec : List (Nat × Option Record)
  /-- The environment's data memory in bytes, 32-bit values little-endian (R64, R68). -/
  dmem : List Host.Cell
  /-- `READY` (R68): the answer in every tick that `readyExcept` does not list. Log 3. -/
  readyDefault : Bool
  /-- `READY`: the ticks with the other answer. Log 3. -/
  readyExcept : List Nat
  /-- The number of the last tick; the host's count (R299), the argument of `READY`. Log 3. -/
  tick : Nat
  /-- The model's own output: the port calls of the last tick in order (R268). Log 2. -/
  calls : List PortCall
deriving DecidableEq, Repr

/-- The outcome of a tick or of one compute step. -/
abbrev Out := Host.Outcome State Fault Refusal

/-- The state after `reset()` (R37) with the parameters of R6 and memories that list nothing: every register, latch
and slot zero or `EMPTY`, `slot[F]` holding `IFetch(ENTRY_PC)`, which is the all-zero NOP (R68). -/
def State.reset : State :=
  { cfg := Config.default
    pc := Config.default.entryPc
    regs := Vector.replicate 32 0
    slotF := Slot.fetched .emptyNop Config.default.entryPc
    slotD := Slot.empty
    slotE := Slot.empty
    slotM := Slot.empty
    slotW := Slot.empty
    exRes := 0
    exTaken := false
    exTarget := 0
    memRes := 0
    memTaken := false
    memTarget := 0
    memLoad := 0
    wbVal := 0
    canAdvance := true
    hazardPending := false
    stage := .fetch
    imem := []
    irec := []
    dmem := []
    readyDefault := true
    readyExcept := []
    tick := 0
    calls := [.ifetch Config.default.entryPc] }

end Sys2Proof.Machine
end

