-- ==== Sys2Proof/Machine/Ops.lean ====
section
/-! DEFINITION. The named operations over registers, memories, ports, slots and latches. The hardware has no
exception, interrupt or trap of any kind (spec/60_exceptions.md R290 to R297), so no operation takes an exception or
returns from one. -/

namespace Sys2Proof.Machine

/-! ### Sequencing -/

/-- Runs `f` on the state if there is one; a fault or refusal ends the tick (R291: no successor state). -/
def andThen (o : Out) (f : State → Out) : Out :=
  match o with
  | .next s => f s
  | .fault r => .fault r
  | .refused r => .refused r

/-- Moves the tick to the compute step of a stage (R181). -/
def atStage (st : Stage) (s : State) : State := { s with stage := st }

/-! ### General registers (R20 to R22). No register is hardwired (R21). -/

/-- `x[r]`. -/
def readReg (s : State) (r : RegIdx) : Word := s.regs[r.toNat]'r.isLt

/-- `x[r] <- v`. -/
def writeReg (r : RegIdx) (v : Word) (s : State) : State := { s with regs := s.regs.set r.toNat v r.isLt }

/-! ### Sparse memories: a list of (address, value) pairs, addresses rising, no value equal to the default -/

/-- The value at an address; the default where nothing is listed. -/
def lookup {β : Type} (dflt : β) : List (Nat × β) → Nat → β
  | [], _ => dflt
  | (k, w) :: rest, a => if k = a then w else lookup dflt rest a

/-- The value `v` put at address `a`; putting the default removes the entry. -/
def put {β : Type} [DecidableEq β] (dflt : β) : List (Nat × β) → Nat → β → List (Nat × β)
  | [], a, v => if v = dflt then [] else [(a, v)]
  | (k, w) :: rest, a, v =>
    if a < k then (if v = dflt then (k, w) :: rest else (a, v) :: (k, w) :: rest)
    else if a = k then (if v = dflt then rest else (a, v) :: rest)
    else (k, w) :: put dflt rest a v

/-- The canonical form: addresses strictly rising from `lo` on and below `2^32`, no listed value the default. -/
def canonFrom {β : Type} [DecidableEq β] (dflt : β) : Nat → List (Nat × β) → Bool
  | _, [] => true
  | lo, (k, w) :: rest => decide (lo ≤ k) && decide (k < 2 ^ 32) && !decide (w = dflt) && canonFrom dflt (k + 1) rest

/-- What an unlisted byte of either memory reads as: 0 (R68, G1). DESIGN CHOICE, unsafe: log 8 and 9. -/
def unlistedByte : Byte := 0

/-- The canonical form of a memory in bytes. -/
def Memory.wf (m : List Host.Cell) : Bool := canonFrom unlistedByte 0 m

/-- One byte. -/
def readByte (m : List Host.Cell) (a : Nat) : Byte := lookup unlistedByte m a

/-- One byte written. -/
def writeByte (m : List Host.Cell) (a : Nat) (v : Byte) : List Host.Cell := put unlistedByte m a v

/-- The 32-bit value at an address that is a multiple of 4 (R63), its bytes little-endian (R64). -/
def readWord (m : List Host.Cell) (a : Word) : Word :=
  wordOfBytes (readByte m a.toNat) (readByte m (a.toNat + 1)) (readByte m (a.toNat + 2)) (readByte m (a.toNat + 3))

/-- The 32-bit value written at an address that is a multiple of 4 (R63, R64). -/
def writeWord (m : List Host.Cell) (a : Word) (v : Word) : List Host.Cell :=
  writeByte (writeByte (writeByte (writeByte m a.toNat (byteOfWord v 0)) (a.toNat + 1) (byteOfWord v 1))
    (a.toNat + 2) (byteOfWord v 2)) (a.toNat + 3) (byteOfWord v 3)

/-- The address is a multiple of 4 (R65, R68). -/
def aligned (a : Word) : Bool := a.toNat % 4 == 0

/-! ### The data ports (R61, R62) -/

/-- `READY(t)` of R68: the answer of the data memory in tick `t`. -/
def ready (s : State) (t : Nat) : Bool := if s.readyExcept.contains t then !s.readyDefault else s.readyDefault

/-- The answer of `DRead`; not ready carries no value (R61, V2). -/
inductive ReadAnswer where
  | ready (v : Word)
  | notReady
deriving DecidableEq, Repr

/-- `DRead(a)` in the current tick (R61, R68); an address that is not a multiple of 4 is refused (R65, D13). -/
def dread (s : State) (a : Word) : Host.Outcome ReadAnswer Fault Refusal :=
  if aligned a then
    if ready s s.tick then .next (.ready (readWord s.dmem a)) else .next .notReady
  else .refused .misalignedDataAddress

/-- A port call noted in the tick's list (R268). -/
def noteCall (c : PortCall) (s : State) : State := { s with calls := s.calls ++ [c] }

/-- A ready answer taken: `MEMload <- v` (R186). -/
def takeLoad (v : Word) (s : State) : State := { s with memLoad := v }

/-- A not-ready answer: `canAdvance` false for this tick, nothing else (R28, R186). -/
def holdPipeline (s : State) : State := { s with canAdvance := false }

/-- Memory compute of a LOAD: `DRead(MEMres)` (R186). -/
def loadAccess (s : State) : Out :=
  match dread s s.memRes with
  | .next (.ready v) => .next (noteCall (.dread s.memRes (some v)) (takeLoad v s))
  | .next .notReady => .next (noteCall (.dread s.memRes none) (holdPipeline s))
  | .fault r => .fault r
  | .refused r => .refused r

/-- `DMEM(a) <- v`. -/
def storeData (a v : Word) (s : State) : State := { s with dmem := writeWord s.dmem a v }

/-- Memory compute of a STORE: `DWrite(MEMres, slot[M].src1Val)`, always done in its one tick (R187, R62); an
address that is not a multiple of 4 is refused (R65, D13). -/
def storeAccess (s : State) : Out :=
  if aligned s.memRes then
    .next (noteCall (.dwrite s.memRes s.slotM.src1Val) (storeData s.memRes s.slotM.src1Val s))
  else .refused .misalignedDataAddress

/-! ### Slots and latches -/

/-- The occupant's slot of a stage (R9). -/
def slotOf (s : State) : Stage → Slot
  | .fetch => s.slotF
  | .decode => s.slotD
  | .execute => s.slotE
  | .memory => s.slotM
  | .writeBack => s.slotW

/-- The operand values of `slot[D]` as Decode resolves them; `cmd` and `ipc` stay (R40). -/
def setDecodeVals (a b d : Word) (s : State) : State :=
  { s with slotD := { s.slotD with src1Val := a, src2Val := b, dstVal := d } }

/-- The operand values of `slot[E]` as the Forwarding Unit patches them; `cmd` and `ipc` stay (R40, R225). -/
def setExecuteVals (a b d : Word) (s : State) : State :=
  { s with slotE := { s.slotE with src1Val := a, src2Val := b, dstVal := d } }

/-- The EX latches: `EXres`, `EXtaken`, `EXtarget` (R33). -/
def latchEx (res : Word) (taken : Bool) (target : Word) (s : State) : State :=
  { s with exRes := res, exTaken := taken, exTarget := target }

/-- `slot[W] <- EMPTY`; `WBval` stays as it is (R253). -/
def clearWriteBack (s : State) : State := { s with slotW := Slot.empty }

/-- `canAdvance <- b`. -/
def setCanAdvance (b : Bool) (s : State) : State := { s with canAdvance := b }

/-- `hazardPending <- b`. -/
def setHazardPending (b : Bool) (s : State) : State := { s with hazardPending := b }

/-- `pc <- v`. -/
def setPc (v : Word) (s : State) : State := { s with pc := v }

/-- `slot[F] <- v`. -/
def setSlotF (v : Slot) (s : State) : State := { s with slotF := v }

/-- Write-Back compute of ADD, SUB and LOAD: `x[dstIndex] <- WBval` (R190). -/
def retire (dst : RegIdx) (s : State) : State := writeReg dst s.wbVal s

end Sys2Proof.Machine
end

