-- ==== Sys2Proof/Machine/Fetch.lean ====
section
/-! DEFINITION. The instruction fetch port and the Fetch stage's advance-time action (spec/20_memory.md R60,
spec/45_stage_processors.md R182), and how a program word is placed in instruction memory from outside (R322). -/

namespace Sys2Proof.Machine

/-- What a fetched record that is no Command does: a fault at the fetch (R100, U1, U2). -/
def recordStop : DecodeError → Host.Outcome Instr Fault Refusal
  | .registerIndexOutOfRange => .fault .registerIndexOutOfRange
  | .unknownOpcode => .fault .unknownOpcode
  | .reservedEncoding => .fault .unknownOpcode
  | .tooFewBytes => .fault .unknownOpcode

/-- What a fetched packed word that is no Command does: refused in the decoder (U3), an index out of range a fault
at the fetch (U2). -/
def wordStop : DecodeError → Host.Outcome Instr Fault Refusal
  | .registerIndexOutOfRange => .fault .registerIndexOutOfRange
  | .unknownOpcode => .refused .unknownOpcodeWord
  | .reservedEncoding => .refused .reservedEncoding
  | .tooFewBytes => .refused .reservedEncoding

/-- The Command of instruction memory at an address that is a multiple of 4: a record where one is given (R90),
else the packed word, an unprogrammed word being the all-zero NOP (R68). -/
def commandAt (s : State) (a : Word) : Host.Outcome Instr Fault Refusal :=
  match lookup none s.irec a.toNat with
  | some r =>
    match r.check s.cfg.nregs with
    | .ok i => .next i
    | .error e => recordStop e
  | none =>
    match decode s.cfg.nregs (readWord s.imem a) with
    | .ok i => .next i
    | .error e => wordStop e

/-- `IFetch(a)` (R60, R68) with the well-formedness check of R182; an address that is not a multiple of 4 is refused
(R65, U4). -/
def ifetch (s : State) (a : Word) : Host.Outcome Instr Fault Refusal :=
  if aligned a then commandAt s a else .refused .misalignedInstructionAddress

/-- `fetch()` of R182: `slot[F] <- {IFetch(pc), 0, 0, ipc = pc, dstVal = 0}`. -/
def fetch (s : State) : Out :=
  match ifetch s s.pc with
  | .next c => .next (noteCall (.ifetch s.pc) (setSlotF (Slot.fetched c s.pc) s))
  | .fault r => .fault r
  | .refused r => .refused r

/-- A packed word placed in instruction memory from outside the core; a record given at that address gives way. -/
def placeWord (a w : Word) (s : State) : State :=
  { s with imem := writeWord s.imem a w, irec := put none s.irec a.toNat none }

/-- A record placed in instruction memory from outside the core, for a Command that has no packed word (R97); the
bytes at that address read 0. -/
def placeRecord (a : Word) (r : Record) (s : State) : State :=
  { s with imem := writeWord s.imem a 0, irec := put none s.irec a.toNat (some r) }

/-- A word placed at `pc`, and `slot[F]` primed with it, as the load of a program before `reset()` and `reset()`'s
own fetch do (R322, R267). A word that is no Command is no instruction a slot can hold: it is placed where the next
normal advance fetches too, so that the next such tick stops by its reason (log 6). -/
def placeAtFetch (w : Word) (s : State) : State :=
  let t := placeWord s.pc w s
  match commandAt t s.pc with
  | .next c => setSlotF (Slot.fetched c s.pc) t
  | .fault _ => placeWord (s.pc + 4) w t
  | .refused _ => placeWord (s.pc + 4) w t

end Sys2Proof.Machine
end

