-- ==== Sys2Proof/Machine/Hazard.lean ====
section
/-! DEFINITION. The Hazard Detection Unit (spec/46_forwarding_and_hazard_units.md R230 to R233): a stateless predicate
on the occupants of Execute and Decode. -/

namespace Sys2Proof.Machine

/-- BR, BREQ, BRNEQ. -/
def isBranch : Opcode → Bool
  | .br => true
  | .breq => true
  | .brneq => true
  | _ => false

/-- The opcodes whose `src1` and `src2` count as read: all but NOP and the unconditional BR (R230). -/
def readsSources : Opcode → Bool
  | .nop => false
  | .br => false
  | _ => true

/-- `hazard()` of R230 on the Command `e` in Execute and the Command `d` in Decode. The second arm names branches
only: a STORE's base register is not covered (R232, C6). -/
def hazardBetween (e d : Instr) : Bool :=
  e.opcode == .load &&
    ((readsSources d.opcode &&
        (d.src1Index == e.dstIndex || (!d.isSrc2Immediate && d.src2Index == e.dstIndex))) ||
      (isBranch d.opcode && d.dstIndex == e.dstIndex))

/-- The predicate on the present occupants. -/
def hazard (s : State) : Bool := hazardBetween s.slotE.cmd s.slotD.cmd

end Sys2Proof.Machine
end

