-- ==== Sys2Proof/Machine/Controller.lean ====
section
/-! DEFINITION. The Tick Controller's advance phase (spec/47_tick_controller.md R255 to R262) and `reset()`
(R267, R320). -/

namespace Sys2Proof.Machine

/-- The value that moves into `WBval` with the occupant of Memory: `MEMload` for LOAD, else `MEMres` (R259). -/
def writeBackValue (s : State) : Word := if s.slotM.cmd.opcode = .load then s.memLoad else s.memRes

/-- Memory moves to Write-Back and Execute to Memory, each with its latches (R256, R259). The old occupant of
Write-Back leaves the pipeline. -/
def shiftDownstream (s : State) : State :=
  { s with
    wbVal := writeBackValue s
    slotW := s.slotM
    slotM := s.slotE
    memRes := s.exRes
    memTaken := s.exTaken
    memTarget := s.exTarget }

/-- `slot[E] <- EMPTY` and its latches zero: the bubble (R256). -/
def insertBubble (s : State) : State :=
  { s with slotE := Slot.empty, exRes := 0, exTaken := false, exTarget := 0 }

/-- The bubble advance (R256): Execute and downstream move, Fetch, Decode and `pc` stay, no fetch. -/
def bubbleAdvance (s : State) : State := setHazardPending false (insertBubble (shiftDownstream s))

/-- The flush (R257): Fetch, Decode and Execute emptied before the shift. -/
def flush (s : State) : State :=
  { s with
    slotF := Slot.empty
    slotD := Slot.empty
    slotE := Slot.empty
    exRes := 0
    exTaken := false
    exTarget := 0 }

/-- The shift of a normal advance (R259). -/
def shift (s : State) : State :=
  let t := shiftDownstream s
  { t with slotE := t.slotD, slotD := t.slotF }

/-- The instruction address of the fetch of a normal advance: the branch target if Memory's occupant is a taken
branch, else `pc + 4` (R24, R258, R260). -/
def nextPc (s : State) : Word := if s.memTaken then s.memTarget else s.pc + 4

/-- Flush if a branch was resolved taken (R257), shift (R259), `pc` (R258, R260): a normal advance up to its fetch. -/
def advanceSlots (s : State) : State := setPc (nextPc s) (shift (if s.memTaken then flush s else s))

/-- `hazardPending <- hazard()` on the new occupants (R262). -/
def recomputeHazard (s : State) : State := setHazardPending (hazard s) s

/-- The normal advance, with or without a flush (R255): slots, `pc`, fetch (R261), hazard recompute (R262). -/
def normalAdvance (s : State) : Out := andThen (fetch (advanceSlots s)) fun t => .next (recomputeHazard t)

/-- The advance phase (R255): the bubble if one is pending and no branch was just resolved taken. -/
def advance (s : State) : Out :=
  if s.hazardPending && !s.memTaken then .next (bubbleAdvance s) else normalAdvance s

/-- The core's registers, slots, latches and flags at zero, `EMPTY`, true and false, `pc` at `ENTRY_PC` (R37, R320).
Parameters, memories and readiness are the environment's and stay (R38); ticks are counted from 0 again (R320). -/
def zeroCore (s : State) : State :=
  { s with
    pc := s.cfg.entryPc
    regs := Vector.replicate 32 0
    slotF := Slot.empty
    slotD := Slot.empty
    slotE := Slot.empty
    slotM := Slot.empty
    slotW := Slot.empty
    exRes := 0
    exTaken := false
    exTarget := 0
    memRes := 0
    memTaken := false
    memTarget := 0
    memLoad := 0
    wbVal := 0
    canAdvance := true
    hazardPending := false
    stage := .fetch
    tick := 0
    calls := [] }

/-- The entry point `reset()` (R267, R320): zero the core, then one fetch at `ENTRY_PC`, which may stop as any fetch
may (U1 to U4). -/
def coreReset (s : State) : Out := fetch (zeroCore s)

/-- The snapshot `getState()` returns (R36): what a slot shows. -/
structure VisibleSlot where
  cmd : Instr
  src1Val : Word
  src2Val : Word
deriving DecidableEq, Repr

/-- `MachineState` (R36). -/
structure MachineState where
  pc : Word
  /-- The `NREGS` registers (R22). -/
  x : List Word
  /-- The five slots, Fetch first. -/
  slot : List VisibleSlot
deriving DecidableEq, Repr

/-- The visible fields of a slot (R30). -/
def visibleSlot (v : Slot) : VisibleSlot := { cmd := v.cmd, src1Val := v.src1Val, src2Val := v.src2Val }

/-- The entry point `getState()` (R36, R267): hidden fields, latches and flags are not shown. -/
def getState (s : State) : MachineState :=
  { pc := s.pc
    x := s.regs.toList.take s.cfg.nregs
    slot := [visibleSlot s.slotF, visibleSlot s.slotD, visibleSlot s.slotE, visibleSlot s.slotM, visibleSlot s.slotW] }

end Sys2Proof.Machine
end

