-- ==== Sys2Proof/Machine/Forwarding.lean ====
section
/-! DEFINITION. The Forwarding Unit (spec/46_forwarding_and_hazard_units.md R220 to R228): two tiers, the occupant
of Memory before the occupant of Write-Back. It is stateless. -/

namespace Sys2Proof.Machine

/-- A writer that tier 1 forwards: ADD and SUB, not LOAD (R221, R224). -/
def tier1Writer : Opcode → Bool
  | .add => true
  | .sub => true
  | _ => false

/-- A writer of a register, which tier 2 forwards and Write-Back retires: ADD, SUB and LOAD (R221, R190). -/
def writesRegister : Opcode → Bool
  | .add => true
  | .sub => true
  | .load => true
  | _ => false

/-- `forward(idx, old)` (R221): tier 1, else tier 2, else the Decode-time value. No index is special (R226). -/
def forward (s : State) (idx : RegIdx) (old : Word) : Word :=
  if tier1Writer s.slotM.cmd.opcode && s.slotM.cmd.dstIndex == idx then s.memRes
  else if writesRegister s.slotW.cmd.opcode && s.slotW.cmd.dstIndex == idx then s.wbVal
  else old

end Sys2Proof.Machine
end

