-- ==== Sys2Proof/Machine/Operands.lean ====
section
/-! DEFINITION. Operand forms: how Decode resolves the three operands (spec/45_stage_processors.md R183) and how
Execute patches them through the Forwarding Unit (R185, R223). The register form reads `src2Index`; the immediate
form takes `immediateValue` as it stands (R92) and is never patched (D18). -/

namespace Sys2Proof.Machine

/-- Decode compute of a Command with the given fields (R183), the same for every opcode (D19). -/
def resolveOperands (isSrc2Immediate : Bool) (dst src1 src2 : RegIdx) (imm : Word) (s : State) : State :=
  setDecodeVals (readReg s src1) (if isSrc2Immediate then imm else readReg s src2) (readReg s dst) s

/-- The forwarding step of Execute compute (R185 part 1, R223): `src1Val` always, `src2Val` in the register form,
`dstVal` where the opcode reads its `dst` register (BR, BREQ, BRNEQ, STORE). -/
def patchOperands (readsDst isSrc2Immediate : Bool) (dst src1 src2 : RegIdx) (s : State) : State :=
  setExecuteVals (forward s src1 s.slotE.src1Val)
    (if isSrc2Immediate then s.slotE.src2Val else forward s src2 s.slotE.src2Val)
    (if readsDst then forward s dst s.slotE.dstVal else s.slotE.dstVal) s

/-- The effective address of LOAD: base `src1Val`, offset `src2Val` (R142). -/
def loadAddress (s : State) : Word := s.slotE.src1Val + s.slotE.src2Val

/-- The effective address of STORE: base `dstVal`, offset `src2Val` (R142, C1). -/
def storeAddress (s : State) : Word := s.slotE.dstVal + s.slotE.src2Val

/-- The branch target: `dstVal` plus the branch's own address plus `BRANCH_BASE_OFFSET` (R163). -/
def branchTarget (s : State) : Word := s.slotE.dstVal + s.slotE.ipc + s.cfg.branchBaseOffset

end Sys2Proof.Machine
end

