-- ==== Sys2Proof/Machine/Flags.lean ====
section
/-! DEFINITION. The hardware has no flags and no condition codes (spec/10_state.md R26); ADD and SUB set none (R123).
The one condition computed is a branch's own comparison of its two operand values in Execute (R161, R162, R185). -/

namespace Sys2Proof.Machine

/-- BREQ is taken iff the operands are equal, on all 32 bits (R161). -/
def takenIfEqual (s : State) : Bool := s.slotE.src1Val == s.slotE.src2Val

/-- BRNEQ is taken iff the operands differ (R162). -/
def takenIfDifferent (s : State) : Bool := s.slotE.src1Val != s.slotE.src2Val

end Sys2Proof.Machine
end

