-- ==== Sys2Proof/Machine/Arithmetic.lean ====
section
/-! DEFINITION. The meanings of NOP, ADD and SUB (spec/40_nop_and_arithmetic.md R120 to R124). A meaning says what
the instruction does in the compute step of the stage it is in (R180, R181; log 1): nothing in Fetch (R182), the
operands in Decode (R183), the result in Execute (R185), nothing in Memory (R188), the register in Write-Back (R190). -/

namespace Sys2Proof.Machine

/-- NOP (R120): its operands are decoded and patched like any other's (D19); no result, no write. -/
def nopStages (isImm : Bool) (dst src1 src2 : RegIdx) (imm : Word) (s : State) : Out :=
  match s.stage with
  | .fetch => .next s
  | .decode => .next (resolveOperands isImm dst src1 src2 imm s)
  | .execute => .next (latchEx 0 false 0 (patchOperands false isImm dst src1 src2 s))
  | .memory => .next s
  | .writeBack => .next s

/-- The sum of the two operands in Execute, modulo 2^32, into `EXres` (R121, R123). -/
def addResult (s : State) : State := latchEx (s.slotE.src1Val + s.slotE.src2Val) false 0 s

/-- The difference `src1 - src2` in Execute, modulo 2^32, into `EXres` (R122, R123). -/
def subResult (s : State) : State := latchEx (s.slotE.src1Val - s.slotE.src2Val) false 0 s

/-- ADD (R121, R124). -/
def addStages (isImm : Bool) (dst src1 src2 : RegIdx) (imm : Word) (s : State) : Out :=
  match s.stage with
  | .fetch => .next s
  | .decode => .next (resolveOperands isImm dst src1 src2 imm s)
  | .execute => .next (addResult (patchOperands false isImm dst src1 src2 s))
  | .memory => .next s
  | .writeBack => .next (retire dst s)

/-- SUB (R122, R124). -/
def subStages (isImm : Bool) (dst src1 src2 : RegIdx) (imm : Word) (s : State) : Out :=
  match s.stage with
  | .fetch => .next s
  | .decode => .next (resolveOperands isImm dst src1 src2 imm s)
  | .execute => .next (subResult (patchOperands false isImm dst src1 src2 s))
  | .memory => .next s
  | .writeBack => .next (retire dst s)

/-- NOP, register form. -/
def execNopR (dst src1 src2 : RegIdx) (imm : Word) (s : State) : Out := nopStages false dst src1 src2 imm s
/-- NOP, immediate form. -/
def execNopI (dst src1 src2 : RegIdx) (imm : Word) (s : State) : Out := nopStages true dst src1 src2 imm s
/-- ADD, register form. -/
def execAddR (dst src1 src2 : RegIdx) (imm : Word) (s : State) : Out := addStages false dst src1 src2 imm s
/-- ADD, immediate form. -/
def execAddI (dst src1 src2 : RegIdx) (imm : Word) (s : State) : Out := addStages true dst src1 src2 imm s
/-- SUB, register form. -/
def execSubR (dst src1 src2 : RegIdx) (imm : Word) (s : State) : Out := subStages false dst src1 src2 imm s
/-- SUB, immediate form. -/
def execSubI (dst src1 src2 : RegIdx) (imm : Word) (s : State) : Out := subStages true dst src1 src2 imm s

end Sys2Proof.Machine
end

