-- ==== Sys2Proof/Machine/Branch.lean ====
section
/-! DEFINITION. The meanings of BR, BREQ and BRNEQ (spec/42_branches.md R160 to R165), stage by stage: target and
taken flag in Execute (R163, R185). Memory and Write-Back compute do nothing for a branch (R188, R190); the redirect
and the flush are the Tick Controller's, from the latches (R165, R257, R258). -/

namespace Sys2Proof.Machine

/-- A branch whose taken flag is `taken` of the patched operands; the target is formed taken or not (R163). -/
def branchStages (taken : State → Bool) (isImm : Bool) (dst src1 src2 : RegIdx) (imm : Word) (s : State) : Out :=
  match s.stage with
  | .fetch => .next s
  | .decode => .next (resolveOperands isImm dst src1 src2 imm s)
  | .execute =>
    let t := patchOperands true isImm dst src1 src2 s
    .next (latchEx 0 (taken t) (branchTarget t) t)
  | .memory => .next s
  | .writeBack => .next s

/-- BR is always taken (R160). -/
def alwaysTaken (_ : State) : Bool := true

/-- BR, register form. -/
def execBrR (dst src1 src2 : RegIdx) (imm : Word) (s : State) : Out :=
  branchStages alwaysTaken false dst src1 src2 imm s
/-- BR, immediate form. -/
def execBrI (dst src1 src2 : RegIdx) (imm : Word) (s : State) : Out :=
  branchStages alwaysTaken true dst src1 src2 imm s
/-- BREQ, register form. -/
def execBreqR (dst src1 src2 : RegIdx) (imm : Word) (s : State) : Out :=
  branchStages takenIfEqual false dst src1 src2 imm s
/-- BREQ, immediate form. -/
def execBreqI (dst src1 src2 : RegIdx) (imm : Word) (s : State) : Out :=
  branchStages takenIfEqual true dst src1 src2 imm s
/-- BRNEQ, register form. -/
def execBrneqR (dst src1 src2 : RegIdx) (imm : Word) (s : State) : Out :=
  branchStages takenIfDifferent false dst src1 src2 imm s
/-- BRNEQ, immediate form. -/
def execBrneqI (dst src1 src2 : RegIdx) (imm : Word) (s : State) : Out :=
  branchStages takenIfDifferent true dst src1 src2 imm s

end Sys2Proof.Machine
end

