-- ==== Sys2Proof/Machine/LoadStore.lean ====
section
/-! DEFINITION. The meanings of LOAD and STORE (spec/41_load_store.md R140 to R146), stage by stage: the effective
address in Execute (R142), the port call in Memory (R186, R187), LOAD's register in Write-Back (R190). STORE reads its
base through the `dst` field and writes no register (R144). -/

namespace Sys2Proof.Machine

/-- LOAD (R140, R146). -/
def loadStages (isImm : Bool) (dst src1 src2 : RegIdx) (imm : Word) (s : State) : Out :=
  match s.stage with
  | .fetch => .next s
  | .decode => .next (resolveOperands isImm dst src1 src2 imm s)
  | .execute =>
    let t := patchOperands false isImm dst src1 src2 s
    .next (latchEx (loadAddress t) false 0 t)
  | .memory => loadAccess s
  | .writeBack => .next (retire dst s)

/-- STORE (R141, R144, R146). -/
def storeStages (isImm : Bool) (dst src1 src2 : RegIdx) (imm : Word) (s : State) : Out :=
  match s.stage with
  | .fetch => .next s
  | .decode => .next (resolveOperands isImm dst src1 src2 imm s)
  | .execute =>
    let t := patchOperands true isImm dst src1 src2 s
    .next (latchEx (storeAddress t) false 0 t)
  | .memory => storeAccess s
  | .writeBack => .next s

/-- LOAD, register form. -/
def execLoadR (dst src1 src2 : RegIdx) (imm : Word) (s : State) : Out := loadStages false dst src1 src2 imm s
/-- LOAD, immediate form. -/
def execLoadI (dst src1 src2 : RegIdx) (imm : Word) (s : State) : Out := loadStages true dst src1 src2 imm s
/-- STORE, register form. -/
def execStoreR (dst src1 src2 : RegIdx) (imm : Word) (s : State) : Out := storeStages false dst src1 src2 imm s
/-- STORE, immediate form. -/
def execStoreI (dst src1 src2 : RegIdx) (imm : Word) (s : State) : Out := storeStages true dst src1 src2 imm s

end Sys2Proof.Machine
end

