-- ==== Sys2Proof/Machine/Dispatch.lean ====
section
/-! DEFINITION. `exec i s`: what the Command `i` does in the compute step of the stage `s.stage` (R180, R181). -/

namespace Sys2Proof.Machine

def exec (i : Instr) (s : State) : Host.Outcome State Fault Refusal :=
  match i with
  | .nopR dst src1 src2 imm => Sys2Proof.Machine.execNopR dst src1 src2 imm s
  | .nopI dst src1 src2 imm => Sys2Proof.Machine.execNopI dst src1 src2 imm s
  | .addR dst src1 src2 imm => Sys2Proof.Machine.execAddR dst src1 src2 imm s
  | .addI dst src1 src2 imm => Sys2Proof.Machine.execAddI dst src1 src2 imm s
  | .subR dst src1 src2 imm => Sys2Proof.Machine.execSubR dst src1 src2 imm s
  | .subI dst src1 src2 imm => Sys2Proof.Machine.execSubI dst src1 src2 imm s
  | .loadR dst src1 src2 imm => Sys2Proof.Machine.execLoadR dst src1 src2 imm s
  | .loadI dst src1 src2 imm => Sys2Proof.Machine.execLoadI dst src1 src2 imm s
  | .storeR dst src1 src2 imm => Sys2Proof.Machine.execStoreR dst src1 src2 imm s
  | .storeI dst src1 src2 imm => Sys2Proof.Machine.execStoreI dst src1 src2 imm s
  | .brR dst src1 src2 imm => Sys2Proof.Machine.execBrR dst src1 src2 imm s
  | .brI dst src1 src2 imm => Sys2Proof.Machine.execBrI dst src1 src2 imm s
  | .breqR dst src1 src2 imm => Sys2Proof.Machine.execBreqR dst src1 src2 imm s
  | .breqI dst src1 src2 imm => Sys2Proof.Machine.execBreqI dst src1 src2 imm s
  | .brneqR dst src1 src2 imm => Sys2Proof.Machine.execBrneqR dst src1 src2 imm s
  | .brneqI dst src1 src2 imm => Sys2Proof.Machine.execBrneqI dst src1 src2 imm s

end Sys2Proof.Machine
end

