-- ==== Sys2Proof/Machine/Tick.lean ====
section
/-! DEFINITION. One `tick()` (spec/47_tick_controller.md R250 to R254, R266): the compute steps, each `exec` of the
occupant of its stage's slot, then the advance phase if Memory compute succeeded. -/

namespace Sys2Proof.Machine

/-- A new tick: its number (R14), no port call yet. -/
def beginTick (s : State) : State := { s with tick := s.tick + 1, calls := [] }

/-- The compute step of a stage: the meaning of its slot's occupant in that stage (R180). -/
def computeStage (st : Stage) (s : State) : Out := exec (slotOf s st).cmd (atStage st s)

/-- Step 2 with `canAdvance` true on entry (R252): Memory, Execute, Decode, Fetch, all of them even if Memory's read
is not ready. `canAdvance` is set true before Memory compute, which alone may set it false (R28, R254). -/
def computeAll (s : State) : Out :=
  andThen (computeStage .memory (setCanAdvance true s)) fun t =>
    andThen (computeStage .execute t) fun u =>
      andThen (computeStage .decode u) fun v =>
        computeStage .fetch v

/-- Step 2 in a retry tick (R253): `slot[W] <- EMPTY`, then Memory compute only. -/
def computeRetry (s : State) : Out := computeStage .memory (setCanAdvance true (clearWriteBack s))

/-- Steps 3 and 4 (R254): a stalled tick ends without an advance; otherwise the advance phase. -/
def finishTick (s : State) : Out :=
  if s.canAdvance then andThen (advance s) fun t => .next (atStage .fetch t) else .next (atStage .fetch s)

/-- `tick()` (R266). Write-Back compute is always first (R181). -/
def tickOnce (s : State) : Out :=
  andThen (computeStage .writeBack (beginTick s)) fun t =>
    andThen (if s.canAdvance then computeAll t else computeRetry t) finishTick

end Sys2Proof.Machine
end

