-- ==== Sys2Proof/Machine/Step.lean ====
section
/-! DEFINITION. The step of the machine, one `tick()` (spec/47_tick_controller.md R266, R268), and the two functions
through which the host places an instruction. -/

namespace Sys2Proof.Machine

/-- One step is one tick: one clock cycle, the one step function of the hardware (R266). -/
def step (s : State) : Host.Outcome State Fault Refusal := tickOnce s

/-- The opcode-table word placed where the Fetch stage holds its instruction: in instruction memory at `pc`, with
`slot[F]` primed as `reset()` primes it, so that the very next tick runs that instruction's Fetch compute step and
moves it on to Decode (log 6). -/
def State.withFetchWord (s : State) (nbits w : Nat) : State := placeAtFetch (tableWord nbits w) s

end Sys2Proof.Machine
end

