-- ==== Sys2Proof/Machine/InstrLevel.lean ====
section
/-! DEFINITION. The instruction level (spec/00_scope.md R12): what each instruction does to registers, data memory and
the next instruction address when instructions are taken one at a time in program order (R120 to R122, R140, R141,
R160 to R162). It is derived from the cycle level, which is the machine (`tickOnce`); `step` does not use it. It serves
the statements that the two levels agree. -/

namespace Sys2Proof.Machine

/-- The architectural state of the instruction level: next instruction address, registers, data memory. -/
structure Arch where
  pc : Word
  regs : Vector Word 32
  dmem : List Host.Cell
deriving DecidableEq, Repr

/-- `x[r]` at the instruction level. -/
def archReg (m : Arch) (r : RegIdx) : Word := m.regs[r.toNat]'r.isLt

/-- `op2`: the register `src2Index` or the immediate (R92). -/
def archOp2 (m : Arch) (i : Instr) : Word := if i.isSrc2Immediate then i.immediateValue else archReg m i.src2Index

/-- `x[r] <- v`, and the next instruction is the sequential one. -/
def archWrite (m : Arch) (r : RegIdx) (v : Word) : Arch :=
  { m with pc := m.pc + 4, regs := m.regs.set r.toNat v r.isLt }

/-- The target of a branch at the own address `m.pc` (R160, R163). -/
def archTarget (cfg : Config) (m : Arch) (i : Instr) : Word := archReg m i.dstIndex + m.pc + cfg.branchBaseOffset

/-- The instruction at `m.pc` redirects: BR always, BREQ and BRNEQ by their comparison (R160 to R162). -/
def archTaken (m : Arch) (i : Instr) : Bool :=
  match i.opcode with
  | .br => true
  | .breq => archReg m i.src1Index == archOp2 m i
  | .brneq => archReg m i.src1Index != archOp2 m i
  | _ => false

/-- The address of the instruction executed next: the target of a taken branch, else own address + 4. -/
def archNext (cfg : Config) (m : Arch) (i : Instr) : Word :=
  if archTaken m i then archTarget cfg m i else m.pc + 4

/-- One instruction at the instruction level, its own address `m.pc`. -/
def archExec (cfg : Config) (i : Instr) (m : Arch) : Host.Outcome Arch Fault Refusal :=
  match i.opcode with
  | .nop => .next { m with pc := m.pc + 4 }
  | .add => .next (archWrite m i.dstIndex (archReg m i.src1Index + archOp2 m i))
  | .sub => .next (archWrite m i.dstIndex (archReg m i.src1Index - archOp2 m i))
  | .load =>
    if aligned (archReg m i.src1Index + archOp2 m i) then
      .next (archWrite m i.dstIndex (readWord m.dmem (archReg m i.src1Index + archOp2 m i)))
    else .refused .misalignedDataAddress
  | .store =>
    if aligned (archReg m i.dstIndex + archOp2 m i) then
      .next { m with
        pc := m.pc + 4
        dmem := writeWord m.dmem (archReg m i.dstIndex + archOp2 m i) (archReg m i.src1Index) }
    else .refused .misalignedDataAddress
  | .br => .next { m with pc := archNext cfg m i }
  | .breq => .next { m with pc := archNext cfg m i }
  | .brneq => .next { m with pc := archNext cfg m i }

/-- The next instruction of a program (R12): the Command of instruction memory at `m.pc`, executed. The environment's
part of `s` (parameters and instruction memory, R76) is read and nothing else of it. -/
def archStep (s : State) (m : Arch) : Host.Outcome Arch Fault Refusal :=
  match ifetch s m.pc with
  | .next i => archExec s.cfg i m
  | .fault r => .fault r
  | .refused r => .refused r

/-- The instruction-level state a program begins with after `reset()` (R37, R38): `pc` at `ENTRY_PC`, registers 0, data
memory as it was. -/
def archReset (s : State) : Arch := { pc := s.cfg.entryPc, regs := Vector.replicate 32 0, dmem := s.dmem }

end Sys2Proof.Machine
end

