-- ==== Sys2Proof/Safety.lean ====
section
/-! DEFINITION. What a good state and a safe run are: the invariants of spec/47_tick_controller.md R269 with the
canonical form of the memories, runs of ticks, and what the registers and memory are once older occupants complete. -/

namespace Sys2Proof.Machine

/-- `n` ticks from `s` go on and end in `t`: none of the undefined inputs of R11 occurs on the way. -/
def RunsTo : Nat → State → State → Prop
  | 0, s, t => t = s
  | n + 1, s, t => ∃ u, step s = .next u ∧ RunsTo n u t

/-- Every Command in the pipeline names registers below `NREGS` (R91, R100). -/
def slotsBelow (s : State) : Bool :=
  s.slotF.cmd.indicesBelow s.cfg.nregs && s.slotD.cmd.indicesBelow s.cfg.nregs &&
    s.slotE.cmd.indicesBelow s.cfg.nregs && s.slotM.cmd.indicesBelow s.cfg.nregs &&
    s.slotW.cmd.indicesBelow s.cfg.nregs

/-- The instructions in `l`, oldest first, and then Fetch's are the program's from address `p` on: each is the Command of
instruction memory at its own address, and the one behind it has that address + 4. A bubble among them (`EMPTY`: NOP at
address 0, R32, R102) has no place in the program; a NOP that is the program's own at address 0 may be read either
way, since no bit of the machine tells the two apart (DEDUCED, log 32). -/
def OnPath (s : State) : Word → List Slot → Prop
  | p, [] => s.slotF.ipc = p
  | p, v :: rest => (v.cmd = .emptyNop ∧ v.ipc = 0 ∧ OnPath s p rest) ∨
      (v.ipc = p ∧ ifetch s p = .next v.cmd ∧ OnPath s (p + 4) rest)

/-- The oldest instruction that the occupants of Write-Back and Memory leave to be completed is at `p`: a taken
branch's target if one is in Memory (what is behind it is discarded, R165), else the path through Execute, Decode and
Fetch begins at `p`. -/
def NextAddress (s : State) (p : Word) : Prop :=
  if s.memTaken then s.memTarget = p else OnPath s p [s.slotE, s.slotD]

/-- The invariants of R269 in one tick's terms, and what the environment's parts keep. -/
structure Inv (s : State) : Prop where
  /-- R269 1: `pc == slot[F].ipc`. -/
  pcIsFetchAddress : s.pc = s.slotF.ipc
  /-- The occupant of Fetch is the Command of instruction memory at `pc` (R182, R261). -/
  fetchedIsMemory : ifetch s s.pc = .next s.slotF.cmd
  /-- R269 2: a stall has a LOAD in Memory. -/
  stallHasLoad : s.canAdvance = false → s.slotM.cmd.opcode = .load
  /-- R269 4, during a stall: the EX latches are those of the occupant of Execute. -/
  stallKeepsEx : s.canAdvance = false → s.exTaken = true → isBranch s.slotE.cmd.opcode = true
  /-- R269 3, R262: the flag is the predicate on the occupants of Execute and Decode. -/
  pendingIsPredicate : s.hazardPending = hazardBetween s.slotE.cmd s.slotD.cmd
  /-- R145, R227: no LOAD in Memory directly ahead of a reader the predicate covers. -/
  loadUseSeparated : hazardBetween s.slotM.cmd s.slotE.cmd = false
  /-- R269 4: a taken flag belongs to a branch in Memory. -/
  takenIsBranch : s.memTaken = true → isBranch s.slotM.cmd.opcode = true
  /-- R269 5 and 6: the occupants of Execute, Decode and Fetch are consecutive instructions of the program, bubbles
  left out, or a taken branch in Memory discards them. -/
  addressesFollow : ∃ p, NextAddress s p
  /-- R91: indices below `NREGS`, which is 1 to 32 (D2). -/
  parametersLegal : s.cfg.wf = true
  indicesLegal : slotsBelow s = true
  /-- Data memory is in its canonical form. -/
  dmemCanonical : Memory.wf s.dmem = true
  /-- Between ticks the model's `stage` rests at Fetch. -/
  stageRests : s.stage = .fetch

/-- The registers once the occupants of Write-Back and Memory have completed (R22, R190): Write-Back's pending
write, then Memory's, a LOAD's value read from the data memory at its latched address. -/
def completedRegs (s : State) : Vector Word 32 :=
  let r := if writesRegister s.slotW.cmd.opcode then s.regs.set s.slotW.cmd.dstIndex.toNat s.wbVal s.slotW.cmd.dstIndex.isLt
    else s.regs
  if writesRegister s.slotM.cmd.opcode then
    r.set s.slotM.cmd.dstIndex.toNat (if s.slotM.cmd.opcode = .load then readWord s.dmem s.memRes else s.memRes)
      s.slotM.cmd.dstIndex.isLt
  else r

/-- The data memory once the occupant of Memory has completed (R187). -/
def completedDmem (s : State) : List Host.Cell :=
  if s.slotM.cmd.opcode = .store then writeWord s.dmem s.memRes s.slotM.src1Val else s.dmem

/-- The instruction-level state of R12 at the occupant of Execute: everything older has completed, nothing younger
has begun, and the next instruction is the one in Execute. -/
def archAt (s : State) : Arch := { pc := s.slotE.ipc, regs := completedRegs s, dmem := completedDmem s }

/-- The opcodes that read their `dst` register: BR, BREQ, BRNEQ and STORE (R223). -/
def readsDst (op : Opcode) : Bool := isBranch op || op == .store

/-- R185's table of `EXres` by opcode, from the operand values `a`, `b` and the captured destination value `d`. -/
def exResultOf (op : Opcode) (a b d : Word) : Word :=
  match op with
  | .add => a + b
  | .sub => a - b
  | .load => a + b
  | .store => d + b
  | _ => 0

/-- R185's table of `EXtaken` by opcode. -/
def exTakenOf (op : Opcode) (a b : Word) : Bool :=
  match op with
  | .br => true
  | .breq => a == b
  | .brneq => a != b
  | _ => false

/-- R185's table of `EXtarget` by opcode. -/
def exTargetOf (op : Opcode) (d ipc off : Word) : Word := if isBranch op then d + ipc + off else 0

/-- The operand values of the occupant of Execute are those of the register file. During a stall those of Decode are
too, the EX latches are computed already and Write-Back's value is in the register file already (R225, R228, R264). -/
structure Coherent (s : State) : Prop where
  src1 : s.slotE.cmd.opcode ≠ .nop → s.slotE.src1Val = readReg s s.slotE.cmd.src1Index
  src2 : s.slotE.cmd.opcode ≠ .nop → s.slotE.src2Val =
    if s.slotE.cmd.isSrc2Immediate then s.slotE.cmd.immediateValue else readReg s s.slotE.cmd.src2Index
  dst : readsDst s.slotE.cmd.opcode = true → s.slotE.dstVal = readReg s s.slotE.cmd.dstIndex
  stalledDecode : s.canAdvance = false →
    s.slotD.src1Val = readReg s s.slotD.cmd.src1Index ∧
      s.slotD.src2Val = (if s.slotD.cmd.isSrc2Immediate then s.slotD.cmd.immediateValue
        else readReg s s.slotD.cmd.src2Index) ∧
      s.slotD.dstVal = readReg s s.slotD.cmd.dstIndex
  stalledRes : s.canAdvance = false →
    s.exRes = exResultOf s.slotE.cmd.opcode s.slotE.src1Val s.slotE.src2Val s.slotE.dstVal
  stalledTaken : s.canAdvance = false → s.exTaken = exTakenOf s.slotE.cmd.opcode s.slotE.src1Val s.slotE.src2Val
  stalledTarget : s.canAdvance = false →
    s.exTarget = exTargetOf s.slotE.cmd.opcode s.slotE.dstVal s.slotE.ipc s.cfg.branchBaseOffset
  stalledWrite : s.canAdvance = false → writesRegister s.slotW.cmd.opcode = true →
    readReg s s.slotW.cmd.dstIndex = s.wbVal

/-- The occupant of Execute moved into Memory with its latches (R256, R259), `s` before the tick and `t` after it: in a
tick that ran Execute compute its operand values are the patched ones (R223, R225) and the MEM latches are R185's for
them; in the retry tick that ends a stall they are those kept since the stall began (R228, R264). -/
structure ExecuteMovedToMemory (s t : State) : Prop where
  cmd : t.slotM.cmd = s.slotE.cmd
  ipc : t.slotM.ipc = s.slotE.ipc
  src1Val : t.slotM.src1Val =
    if s.canAdvance then forward s s.slotE.cmd.src1Index s.slotE.src1Val else s.slotE.src1Val
  src2Val : t.slotM.src2Val =
    if s.canAdvance && !s.slotE.cmd.isSrc2Immediate then forward s s.slotE.cmd.src2Index s.slotE.src2Val
    else s.slotE.src2Val
  dstVal : t.slotM.dstVal =
    if s.canAdvance && readsDst s.slotE.cmd.opcode then forward s s.slotE.cmd.dstIndex s.slotE.dstVal
    else s.slotE.dstVal
  memRes : t.memRes =
    if s.canAdvance then exResultOf s.slotE.cmd.opcode t.slotM.src1Val t.slotM.src2Val t.slotM.dstVal else s.exRes
  memTaken : t.memTaken =
    if s.canAdvance then exTakenOf s.slotE.cmd.opcode t.slotM.src1Val t.slotM.src2Val else s.exTaken
  memTarget : t.memTarget =
    if s.canAdvance then exTargetOf s.slotE.cmd.opcode t.slotM.dstVal s.slotE.ipc s.cfg.branchBaseOffset
    else s.exTarget

/-- The two levels agree between ticks (R12): once the occupants of Write-Back and Memory have completed, registers
and data memory are the instruction level's, and its next instruction is the pipeline's. -/
structure Agrees (s : State) (m : Arch) : Prop where
  regs : m.regs = completedRegs s
  dmem : m.dmem = completedDmem s
  next : NextAddress s m.pc

/-- `k` instructions of the program in the environment of `s`, one at a time from `m` to `m'` (R12). -/
def ArchRunsTo (s : State) : Nat → Arch → Arch → Prop
  | 0, m, m' => m' = m
  | k + 1, m, m' => ∃ n, archStep s m = .next n ∧ ArchRunsTo s k n m'

/-- The one hazard software must respect (R326) does not arise in this tick: no STORE in Execute directly behind a
LOAD of its base register in Memory. -/
def NoStoreBaseHazard (s : State) : Prop :=
  ¬(s.slotM.cmd.opcode = .load ∧ s.slotE.cmd.opcode = .store ∧ s.slotE.cmd.dstIndex = s.slotM.cmd.dstIndex)

/-- A pipeline in which only `slot[F]` is occupied, as after `reset()` or after a flush has run out: nothing older
is in flight and no stall or bubble is on. -/
structure Drained (s : State) : Prop where
  decodeEmpty : s.slotD = Slot.empty
  executeEmpty : s.slotE = Slot.empty
  memoryEmpty : s.slotM = Slot.empty
  writeBackEmpty : s.slotW = Slot.empty
  advancing : s.canAdvance = true
  noBubble : s.hazardPending = false
  noTaken : s.memTaken = false

/-- The instructions at `a`, `a + 4`, … up to `n` of them, are the all-zero NOP. -/
def NopsFrom (s : State) (a : Word) : Nat → Prop
  | 0 => True
  | n + 1 => ifetch s a = .next .emptyNop ∧ NopsFrom s (a + 4) n

end Sys2Proof.Machine
end

