-- ==== Sys2Proof/Certificates/Slice0/Obligations.lean ====
section
/-! DEFINITION. The statements for the provers, in the order of OBLIGATIONS.json: encoding, the meanings stage by stage,
the two units, one tick, many ticks, memories, reset, and the agreement of the two levels. -/

open Sys2Proof Sys2Proof.Machine

/-! ### Encoding -/

/-- The sixteen words of spec/95_test_vectors.md section 2.4, E1 to E16, decode to the Commands given there (packed
word: decision D7, log 26). -/
def Obligations.SpecWordsDecodeToTheirCommands : Prop :=
  decode 32 0x00000000 = .ok (.nopR 0 0 0 0) ∧
  decode 32 0x10610004 = .ok (.addR 3 1 4 0) ∧
  decode 32 0x20810005 = .ok (.subR 4 1 5 0) ∧
  decode 32 0x38220000 = .ok (.loadI 1 2 0 0) ∧
  decode 32 0x18A4FFFF = .ok (.addI 5 4 0 0xFFFFFFFF) ∧
  decode 32 0x18A47FFF = .ok (.addI 5 4 0 32767) ∧
  decode 32 0x28A48000 = .ok (.subI 5 4 0 0xFFFF8000) ∧
  decode 32 0x48430004 = .ok (.storeI 2 3 0 4) ∧
  decode 32 0x40430004 = .ok (.storeR 2 3 4 0) ∧
  decode 32 0x33FE001D = .ok (.loadR 31 30 29 0) ∧
  decode 32 0x50E00000 = .ok (.brR 7 0 0 0) ∧
  decode 32 0x60E10002 = .ok (.breqR 7 1 2 0) ∧
  decode 32 0x70C10000 = .ok (.brneqR 6 1 0 0) ∧
  decode 32 0x7BFFFFFE = .ok (.brneqI 31 31 0 0xFFFFFFFE) ∧
  decode 32 0x0BE5FFFF = .ok (.nopI 31 5 0 0xFFFFFFFF) ∧
  decode 32 0x50E30004 = .ok (.brR 7 3 4 0)

/-- `decode(encode(c)) = c` for every Command that has a packed word (R98; the packed word is decision D7, log 26),
under every `NREGS`. -/
def Obligations.DecodeOfEncodeIsTheCommand : Prop :=
  ∀ (nregs : Nat) (i : Instr), i.wellFormed nregs = true → decode nregs (encodeWord i) = .ok i

/-- `encode(decode(w)) = w` for every word `decode` accepts (R98, decision D7, log 26), and what it accepts is well
formed. -/
def Obligations.EncodeOfDecodeIsTheWord : Prop :=
  ∀ (nregs : Nat) (w : Word) (i : Instr), decode nregs w = .ok i →
    encodeWord i = w ∧ i.wellFormed nregs = true

/-- A word is a row of the opcode map iff `w & mask == match` (R99, decisions D6 and D7, log 26): mask `0xFC00FFE0`
and match `op << 28` in the register form, mask `0xFC000000` and match `op << 28 | 1 << 27` in the immediate form. -/
def Obligations.RowMatchIsDecoding : Prop :=
  ∀ (w : Word) (op : Opcode) (imm : Bool),
    w &&& (if imm then 0xFC000000#32 else 0xFC00FFE0#32) =
        (op.number.zeroExtend 32 <<< 28 ||| (if imm then 0x08000000#32 else 0#32)) ↔
      ∃ i, decode 32 w = .ok i ∧ i.opcode = op ∧ i.isSrc2Immediate = imm

/-- What `decode` answers for every word, the tests in R97's order (decision D7, log 26; V10, log 12): `op` 8 to 15;
else bit 26, or bits 15:5 of the register form (the reserved encodings of R101); else an index not below `NREGS`,
`src2` in the register form only; and every other word is a Command, so that with 32 registers every word that is not
reserved is one (R101). -/
def Obligations.ReservedWordsAreRejectedByName : Prop :=
  (∀ (nregs : Nat) (w : Word),
    (decode nregs w = .error .unknownOpcode ↔ 8 ≤ (opField w).toNat) ∧
    (decode nregs w = .error .reservedEncoding ↔
      (opField w).toNat < 8 ∧ (reservedBit w = true ∨ (immFlag w = false ∧ zeroField w ≠ 0))) ∧
    (decode nregs w = .error .registerIndexOutOfRange ↔
      (opField w).toNat < 8 ∧ ¬(reservedBit w = true ∨ (immFlag w = false ∧ zeroField w ≠ 0)) ∧
        (nregs ≤ (dstField w).toNat ∨ nregs ≤ (src1Field w).toNat ∨
          (immFlag w = false ∧ nregs ≤ (src2Field w).toNat))) ∧
    ((∃ i, decode nregs w = .ok i) ↔
      (opField w).toNat < 8 ∧ ¬(reservedBit w = true ∨ (immFlag w = false ∧ zeroField w ≠ 0)) ∧
        (dstField w).toNat < nregs ∧ (src1Field w).toNat < nregs ∧
        (immFlag w = false → (src2Field w).toNat < nregs))) ∧
  (∀ w : Word, (∃ i, decode 32 w = .ok i) ↔
    (opField w).toNat < 8 ∧ ¬(reservedBit w = true ∨ (immFlag w = false ∧ zeroField w ≠ 0)))

/-- The check of a Command given as a record (R91, R100): a Command with indices below `NREGS` passes unchanged; an
opcode number that is none of the eight, or else an index not below `NREGS`, is rejected by name. That a record wrong
in both ways is rejected for its opcode is the order this spec tests in (R293), which V10 leaves open (DESIGN CHOICE,
log 12). -/
def Obligations.RecordCheckAcceptsExactlyTheCommands : Prop :=
  ∀ (nregs : Nat), nregs ≤ 32 →
    (∀ i : Instr, i.indicesBelow nregs = true → Record.check nregs i.toRecord = .ok i) ∧
    (∀ r : Record, Record.check nregs r = .error .unknownOpcode ↔ 8 ≤ r.opcode) ∧
    (∀ r : Record, Record.check nregs r = .error .registerIndexOutOfRange ↔
      r.opcode < 8 ∧ (nregs ≤ r.dstIndex ∨ nregs ≤ r.src1Index ∨ nregs ≤ r.src2Index))

/-! ### The meanings, stage by stage -/

/-- Decode compute of every instruction (R183; "for every opcode" is decision D19, log 19): the three operand values
of `slot[D]` are resolved, everything else stays. -/
def Obligations.DecodeStageResolvesEveryInstruction : Prop :=
  ∀ (i : Instr) (s : State), s.stage = .decode →
    exec i s = .next { s with slotD := { s.slotD with
      src1Val := readReg s i.src1Index
      src2Val := if i.isSrc2Immediate then i.immediateValue else readReg s i.src2Index
      dstVal := readReg s i.dstIndex } }

/-- Fetch compute of every instruction has no effect (R182, decision D24, log 22). -/
def Obligations.FetchStageChangesNothing : Prop :=
  ∀ (i : Instr) (s : State), s.stage = .fetch → exec i s = .next s

/-- NOP in Execute, Memory and Write-Back (R120, R185, R188, R190). That its operands are patched and its latches are
zero is decision D19 and D10 (log 16, 19). -/
def Obligations.NopPassesItsStages : Prop :=
  ∀ (d a b : RegIdx) (n : Word) (s : State),
    (s.stage = .execute →
      exec (.nopR d a b n) s = .next { s with
        slotE := { s.slotE with
          src1Val := forward s a s.slotE.src1Val
          src2Val := forward s b s.slotE.src2Val }
        exRes := 0, exTaken := false, exTarget := 0 } ∧
      exec (.nopI d a b n) s = .next { s with
        slotE := { s.slotE with src1Val := forward s a s.slotE.src1Val }
        exRes := 0, exTaken := false, exTarget := 0 }) ∧
    (s.stage = .memory → exec (.nopR d a b n) s = .next s ∧ exec (.nopI d a b n) s = .next s) ∧
    (s.stage = .writeBack → exec (.nopR d a b n) s = .next s ∧ exec (.nopI d a b n) s = .next s)

/-- ADD in Execute, Memory and Write-Back (R121, R124, R185, R188, R190): the sum modulo 2^32 (decision D8, log 13) of
the patched operands into `EXres`; nothing; `x[D] <- WBval`, `D = 0` like any other (D9, log 15). The unused
`EXtarget` is 0 by decision D10 (log 16). -/
def Obligations.AddPassesItsStages : Prop :=
  ∀ (d a b : RegIdx) (n : Word) (s : State),
    (s.stage = .execute →
      exec (.addR d a b n) s = .next { s with
        slotE := { s.slotE with
          src1Val := forward s a s.slotE.src1Val
          src2Val := forward s b s.slotE.src2Val }
        exRes := forward s a s.slotE.src1Val + forward s b s.slotE.src2Val
        exTaken := false, exTarget := 0 } ∧
      exec (.addI d a b n) s = .next { s with
        slotE := { s.slotE with src1Val := forward s a s.slotE.src1Val }
        exRes := forward s a s.slotE.src1Val + s.slotE.src2Val
        exTaken := false, exTarget := 0 }) ∧
    (s.stage = .memory → exec (.addR d a b n) s = .next s ∧ exec (.addI d a b n) s = .next s) ∧
    (s.stage = .writeBack →
      exec (.addR d a b n) s = .next { s with regs := s.regs.set d.toNat s.wbVal d.isLt } ∧
      exec (.addI d a b n) s = .next { s with regs := s.regs.set d.toNat s.wbVal d.isLt })

/-- SUB in Execute, Memory and Write-Back (R122, R124, R185, R188, R190): `src1 - src2` modulo 2^32 (D8, log 13). The
unused `EXtarget` is 0 by decision D10 (log 16). -/
def Obligations.SubPassesItsStages : Prop :=
  ∀ (d a b : RegIdx) (n : Word) (s : State),
    (s.stage = .execute →
      exec (.subR d a b n) s = .next { s with
        slotE := { s.slotE with
          src1Val := forward s a s.slotE.src1Val
          src2Val := forward s b s.slotE.src2Val }
        exRes := forward s a s.slotE.src1Val - forward s b s.slotE.src2Val
        exTaken := false, exTarget := 0 } ∧
      exec (.subI d a b n) s = .next { s with
        slotE := { s.slotE with src1Val := forward s a s.slotE.src1Val }
        exRes := forward s a s.slotE.src1Val - s.slotE.src2Val
        exTaken := false, exTarget := 0 }) ∧
    (s.stage = .memory → exec (.subR d a b n) s = .next s ∧ exec (.subI d a b n) s = .next s) ∧
    (s.stage = .writeBack →
      exec (.subR d a b n) s = .next { s with regs := s.regs.set d.toNat s.wbVal d.isLt } ∧
      exec (.subI d a b n) s = .next { s with regs := s.regs.set d.toNat s.wbVal d.isLt })

/-- LOAD in Execute and Write-Back (R140, R142, R185, R190): the address `src1 + op2` modulo 2^32 (D8, log 13), then
`x[D] <- WBval`. The unused `EXtarget` is 0 by decision D10 (log 16). -/
def Obligations.LoadFormsAddressAndWritesItsRegister : Prop :=
  ∀ (d a b : RegIdx) (n : Word) (s : State),
    (s.stage = .execute →
      exec (.loadR d a b n) s = .next { s with
        slotE := { s.slotE with
          src1Val := forward s a s.slotE.src1Val
          src2Val := forward s b s.slotE.src2Val }
        exRes := forward s a s.slotE.src1Val + forward s b s.slotE.src2Val
        exTaken := false, exTarget := 0 } ∧
      exec (.loadI d a b n) s = .next { s with
        slotE := { s.slotE with src1Val := forward s a s.slotE.src1Val }
        exRes := forward s a s.slotE.src1Val + s.slotE.src2Val
        exTaken := false, exTarget := 0 }) ∧
    (s.stage = .writeBack →
      exec (.loadR d a b n) s = .next { s with regs := s.regs.set d.toNat s.wbVal d.isLt } ∧
      exec (.loadI d a b n) s = .next { s with regs := s.regs.set d.toNat s.wbVal d.isLt })

/-- LOAD in Memory (R186): one `DRead(MEMres)`; ready, `MEMload` takes the value and nothing else changes; not ready,
`canAdvance` is false and nothing else changes; an address that is not a multiple of 4 is refused (R65, D13, log 10).
-/
def Obligations.LoadReadsOrHoldsThePipeline : Prop :=
  ∀ (i : Instr) (s : State), i.opcode = .load → s.stage = .memory →
    (aligned s.memRes = true → ready s s.tick = true →
      exec i s = .next { s with
        memLoad := readWord s.dmem s.memRes
        calls := s.calls ++ [.dread s.memRes (some (readWord s.dmem s.memRes))] }) ∧
    (aligned s.memRes = true → ready s s.tick = false →
      exec i s = .next { s with canAdvance := false, calls := s.calls ++ [.dread s.memRes none] }) ∧
    (aligned s.memRes = false → exec i s = .refused .misalignedDataAddress)

/-- STORE in Execute and Write-Back (R141, R142, R144, C1): the address is `dst + op2` (C1, log 23), and no register
is written. The unused `EXtarget` is 0 by decision D10 (log 16). -/
def Obligations.StoreFormsAddressFromItsDstRegister : Prop :=
  ∀ (d a b : RegIdx) (n : Word) (s : State),
    (s.stage = .execute →
      exec (.storeR d a b n) s = .next { s with
        slotE := { s.slotE with
          src1Val := forward s a s.slotE.src1Val
          src2Val := forward s b s.slotE.src2Val
          dstVal := forward s d s.slotE.dstVal }
        exRes := forward s d s.slotE.dstVal + forward s b s.slotE.src2Val
        exTaken := false, exTarget := 0 } ∧
      exec (.storeI d a b n) s = .next { s with
        slotE := { s.slotE with
          src1Val := forward s a s.slotE.src1Val
          dstVal := forward s d s.slotE.dstVal }
        exRes := forward s d s.slotE.dstVal + s.slotE.src2Val
        exTaken := false, exTarget := 0 }) ∧
    (s.stage = .writeBack → exec (.storeR d a b n) s = .next s ∧ exec (.storeI d a b n) s = .next s)

/-- STORE in Memory (R141, R187): one `DWrite(MEMres, slot[M].src1Val)`. The word at `MEMres` is the stored value,
every byte outside its four reads as before, and nothing but data memory and the noted call changes; an address that
is not a multiple of 4 is refused (R65, D13, log 10). -/
def Obligations.StoreWritesItsWordAndNothingElse : Prop :=
  ∀ (i : Instr) (s : State), i.opcode = .store → s.stage = .memory →
    (aligned s.memRes = true → Memory.wf s.dmem = true →
      ∃ m, exec i s = .next { s with
          dmem := m
          calls := s.calls ++ [.dwrite s.memRes s.slotM.src1Val] } ∧
        readWord m s.memRes = s.slotM.src1Val ∧
        ∀ a : Nat, ¬(s.memRes.toNat ≤ a ∧ a < s.memRes.toNat + 4) → readByte m a = readByte s.dmem a) ∧
    (aligned s.memRes = false → exec i s = .refused .misalignedDataAddress)

/-- BR in Execute, Memory and Write-Back (R160, R163, R185, R188, R190): always taken, target `dst` value + own
address + `BRANCH_BASE_OFFSET` (decision D4, log 14). The unused `EXres` is 0 by decision D10 (log 16). -/
def Obligations.BrIsAlwaysTaken : Prop :=
  ∀ (d a b : RegIdx) (n : Word) (s : State),
    (s.stage = .execute →
      exec (.brR d a b n) s = .next { s with
        slotE := { s.slotE with
          src1Val := forward s a s.slotE.src1Val
          src2Val := forward s b s.slotE.src2Val
          dstVal := forward s d s.slotE.dstVal }
        exRes := 0, exTaken := true
        exTarget := forward s d s.slotE.dstVal + s.slotE.ipc + s.cfg.branchBaseOffset } ∧
      exec (.brI d a b n) s = .next { s with
        slotE := { s.slotE with
          src1Val := forward s a s.slotE.src1Val
          dstVal := forward s d s.slotE.dstVal }
        exRes := 0, exTaken := true
        exTarget := forward s d s.slotE.dstVal + s.slotE.ipc + s.cfg.branchBaseOffset }) ∧
    (s.stage = .memory → exec (.brR d a b n) s = .next s ∧ exec (.brI d a b n) s = .next s) ∧
    (s.stage = .writeBack → exec (.brR d a b n) s = .next s ∧ exec (.brI d a b n) s = .next s)

/-- BREQ in Execute, Memory and Write-Back (R161, R163, R185): taken iff the operands are equal on all 32 bits. The
target is decision D4 (log 14), the unused `EXres` 0 decision D10 (log 16). -/
def Obligations.BreqIsTakenIffEqual : Prop :=
  ∀ (d a b : RegIdx) (n : Word) (s : State),
    (s.stage = .execute →
      exec (.breqR d a b n) s = .next { s with
        slotE := { s.slotE with
          src1Val := forward s a s.slotE.src1Val
          src2Val := forward s b s.slotE.src2Val
          dstVal := forward s d s.slotE.dstVal }
        exRes := 0
        exTaken := decide (forward s a s.slotE.src1Val = forward s b s.slotE.src2Val)
        exTarget := forward s d s.slotE.dstVal + s.slotE.ipc + s.cfg.branchBaseOffset } ∧
      exec (.breqI d a b n) s = .next { s with
        slotE := { s.slotE with
          src1Val := forward s a s.slotE.src1Val
          dstVal := forward s d s.slotE.dstVal }
        exRes := 0
        exTaken := decide (forward s a s.slotE.src1Val = s.slotE.src2Val)
        exTarget := forward s d s.slotE.dstVal + s.slotE.ipc + s.cfg.branchBaseOffset }) ∧
    (s.stage = .memory → exec (.breqR d a b n) s = .next s ∧ exec (.breqI d a b n) s = .next s) ∧
    (s.stage = .writeBack → exec (.breqR d a b n) s = .next s ∧ exec (.breqI d a b n) s = .next s)

/-- BRNEQ in Execute, Memory and Write-Back (R162, R163, R185): taken iff the operands differ. The target is decision
D4 (log 14), the unused `EXres` 0 decision D10 (log 16). -/
def Obligations.BrneqIsTakenIffDifferent : Prop :=
  ∀ (d a b : RegIdx) (n : Word) (s : State),
    (s.stage = .execute →
      exec (.brneqR d a b n) s = .next { s with
        slotE := { s.slotE with
          src1Val := forward s a s.slotE.src1Val
          src2Val := forward s b s.slotE.src2Val
          dstVal := forward s d s.slotE.dstVal }
        exRes := 0
        exTaken := decide (forward s a s.slotE.src1Val ≠ forward s b s.slotE.src2Val)
        exTarget := forward s d s.slotE.dstVal + s.slotE.ipc + s.cfg.branchBaseOffset } ∧
      exec (.brneqI d a b n) s = .next { s with
        slotE := { s.slotE with
          src1Val := forward s a s.slotE.src1Val
          dstVal := forward s d s.slotE.dstVal }
        exRes := 0
        exTaken := decide (forward s a s.slotE.src1Val ≠ s.slotE.src2Val)
        exTarget := forward s d s.slotE.dstVal + s.slotE.ipc + s.cfg.branchBaseOffset }) ∧
    (s.stage = .memory → exec (.brneqR d a b n) s = .next s ∧ exec (.brneqI d a b n) s = .next s) ∧
    (s.stage = .writeBack → exec (.brneqR d a b n) s = .next s ∧ exec (.brneqI d a b n) s = .next s)

/-! ### The Forwarding Unit and the Hazard Detection Unit -/

/-- `forward(idx, old)` (R221, R222): Memory's ADD or SUB with this destination gives `MEMres`; else Write-Back's ADD,
SUB or LOAD with this destination gives `WBval`; else the Decode-time value. -/
def Obligations.ForwardingTakesTheYoungestWriter : Prop :=
  ∀ (s : State) (idx : RegIdx) (old : Word),
    ((s.slotM.cmd.opcode = .add ∨ s.slotM.cmd.opcode = .sub) ∧ s.slotM.cmd.dstIndex = idx →
      forward s idx old = s.memRes) ∧
    (¬((s.slotM.cmd.opcode = .add ∨ s.slotM.cmd.opcode = .sub) ∧ s.slotM.cmd.dstIndex = idx) →
      ((s.slotW.cmd.opcode = .add ∨ s.slotW.cmd.opcode = .sub ∨ s.slotW.cmd.opcode = .load) ∧
          s.slotW.cmd.dstIndex = idx → forward s idx old = s.wbVal) ∧
      (¬((s.slotW.cmd.opcode = .add ∨ s.slotW.cmd.opcode = .sub ∨ s.slotW.cmd.opcode = .load) ∧
          s.slotW.cmd.dstIndex = idx) → forward s idx old = old))

/-- `hazard()` (R230): a LOAD in Execute and, in Decode, an opcode other than NOP and BR that reads its destination as
`src1` or as register `src2` (decision D18, log 18), or a branch whose `dst` register is its destination. -/
def Obligations.HazardIsTheLoadUsePair : Prop :=
  ∀ e d : Instr, hazardBetween e d = true ↔
    e.opcode = .load ∧
      ((d.opcode ≠ .nop ∧ d.opcode ≠ .br ∧
          (d.src1Index = e.dstIndex ∨ (d.isSrc2Immediate = false ∧ d.src2Index = e.dstIndex))) ∨
        ((d.opcode = .br ∨ d.opcode = .breq ∨ d.opcode = .brneq) ∧ d.dstIndex = e.dstIndex))

/-- The hazard software must respect (R326, C6): a STORE whose base register is written by the LOAD directly ahead
raises no bubble unless it also reads that register as data or register offset, and in Execute, with that LOAD in
Memory, its address is formed from Write-Back's value or the Decode-time value, never the LOAD's. -/
def Obligations.StoreBehindLoadUsesTheOldBase : Prop :=
  (∀ l t : Instr, l.opcode = .load → t.opcode = .store → t.src1Index ≠ l.dstIndex →
    (t.isSrc2Immediate = true ∨ t.src2Index ≠ l.dstIndex) → hazardBetween l t = false) ∧
  (∀ (i : Instr) (s : State), i.opcode = .store → s.stage = .execute → s.slotM.cmd.opcode = .load →
    s.slotM.cmd.dstIndex = i.dstIndex →
    ∃ t, exec i s = .next t ∧
      t.exRes = (if writesRegister s.slotW.cmd.opcode = true ∧ s.slotW.cmd.dstIndex = i.dstIndex then s.wbVal
        else s.slotE.dstVal) + t.slotE.src2Val)

/-! ### One tick -/

/-- A step runs the occupants (R266): when the compute steps of the occupants of Write-Back, Memory, Execute, Decode
and Fetch answer next states in that order, the step is the end of the tick on the last; in a retry tick only
Write-Back and Memory run, `slot[W]` cleared between. The tick's number, its list of port calls, `canAdvance` and the
model's `stage` are what the tick adds around `exec` (log 1, 2, 3, 28). -/
def Obligations.StepRunsTheOccupantsOfTheSlots : Prop :=
  ∀ s t u v w x : State,
    exec s.slotW.cmd (atStage .writeBack (beginTick s)) = .next t →
    (s.canAdvance = true →
      exec t.slotM.cmd (atStage .memory (setCanAdvance true t)) = .next u →
      exec u.slotE.cmd (atStage .execute u) = .next v →
      exec v.slotD.cmd (atStage .decode v) = .next w →
      exec w.slotF.cmd (atStage .fetch w) = .next x →
      step s = finishTick x) ∧
    (s.canAdvance = false →
      exec t.slotM.cmd (atStage .memory (setCanAdvance true (clearWriteBack t))) = .next u →
      step s = finishTick u)

/-- When the bytes at `pc` decode to an instruction, or a record that passes its check is given there, that
instruction is the occupant of Fetch, the tick that does not stall, bubble or flush runs it there and moves it to
Decode with its own address, and the next tick runs `exec` of it in Decode on whatever the tick's earlier compute
steps left (R182, R259, R261). That instruction memory is packed words in bytes is decision D7 and D12 (log 26), that
a record goes before the word at its address is the model's own two lists (DESIGN CHOICE, log 7). -/
def Obligations.BytesAtPcRunAsDecoded : Prop :=
  ∀ (s t : State) (i : Instr), Inv s →
    (lookup none s.irec s.pc.toNat = none ∧ decode s.cfg.nregs (readWord s.imem s.pc) = .ok i) ∨
      (∃ r, lookup none s.irec s.pc.toNat = some r ∧ r.check s.cfg.nregs = .ok i) →
    computeStage .fetch s = exec i (atStage .fetch s) ∧
    (step s = .next t → t.canAdvance = true → s.hazardPending = false → s.memTaken = false →
      t.slotD.cmd = i ∧ t.slotD.ipc = s.pc ∧
      ∀ u, u.slotD = t.slotD → computeStage .decode u = exec i (atStage .decode u))

/-- The four cases of `pc` in one tick (R24): stalled, bubble, taken branch, sequential; no compute step changes it,
and a stalled tick fetches nothing. -/
def Obligations.PcAfterOneTick : Prop :=
  (∀ s t : State, step s = .next t →
    t.pc = (if s.slotM.cmd.opcode = .load ∧ ready s (s.tick + 1) = false then s.pc
      else if s.hazardPending = true ∧ s.memTaken = false then s.pc
      else if s.memTaken = true then s.memTarget
      else s.pc + 4) ∧
    (s.slotM.cmd.opcode = .load ∧ ready s (s.tick + 1) = false →
      t.slotF = s.slotF ∧ ∀ a, PortCall.ifetch a ∉ t.calls)) ∧
  (∀ (i : Instr) (s t : State), exec i s = .next t → t.pc = s.pc)

/-- The last action of every normal advance, with or without a flush (R262): `hazardPending` is the predicate on the
new occupants of Execute and Decode. -/
def Obligations.NormalAdvanceRecomputesTheHazard : Prop :=
  ∀ s t : State, step s = .next t → t.canAdvance = true → ¬(s.hazardPending = true ∧ s.memTaken = false) →
    t.hazardPending = hazardBetween t.slotE.cmd t.slotD.cmd

/-- The advance phase takes the bubble path iff `hazardPending` and not `MEMtaken`, and the normal path otherwise
(R255). -/
def Obligations.AdvanceTakesOneOfTwoPaths : Prop :=
  ∀ s : State,
    (s.hazardPending = true ∧ s.memTaken = false → advance s = .next (bubbleAdvance s)) ∧
    (¬(s.hazardPending = true ∧ s.memTaken = false) → advance s = normalAdvance s)

/-- A normal tick without a flush (R259, R260, R261, R262): every occupant moves one slot on with its address, the MEM
latches are what Execute computed or kept (`ExecuteMovedToMemory`), `slot[F]` is fetched at the new `pc`,
`hazardPending` is the predicate on the new occupants, and `WBval` is `MEMload` for a LOAD, else `MEMres`. The zero
operand values of `slot[F]`, the zero of an unused latch and the `WBval` of an occupant that writes no register are
decision D10 (log 16). -/
def Obligations.NormalTickShiftsEverySlot : Prop :=
  ∀ s t : State, step s = .next t → t.canAdvance = true → s.hazardPending = false → s.memTaken = false →
    t.slotW = s.slotM ∧ ExecuteMovedToMemory s t ∧
    t.slotE.cmd = s.slotD.cmd ∧ t.slotE.ipc = s.slotD.ipc ∧
    t.slotD = s.slotF ∧
    ifetch s (s.pc + 4) = .next t.slotF.cmd ∧ t.slotF = Slot.fetched t.slotF.cmd (s.pc + 4) ∧
    t.hazardPending = hazardBetween t.slotE.cmd t.slotD.cmd ∧
    t.wbVal = (if s.slotM.cmd.opcode = .load then t.memLoad else s.memRes)

/-- A flush tick (R165, R257, R258): `pc` is the target and its instruction is in Fetch, Decode, Execute and Memory
hold `EMPTY`, Write-Back holds the branch, and the taken flag and `hazardPending` are false. The zero fields of
`EMPTY` and of the fetched slot are decision D10 (log 16). -/
def Obligations.FlushTickDiscardsThreeInstructions : Prop :=
  ∀ s t : State, step s = .next t → t.canAdvance = true → s.memTaken = true →
    t.pc = s.memTarget ∧ ifetch s s.memTarget = .next t.slotF.cmd ∧
    t.slotF = Slot.fetched t.slotF.cmd s.memTarget ∧
    t.slotD = Slot.empty ∧ t.slotE = Slot.empty ∧ t.slotM = Slot.empty ∧ t.slotW = s.slotM ∧
    t.memTaken = false ∧ t.hazardPending = false

/-- A bubble tick (R256): Execute and downstream move, with the MEM latches Execute computed or kept
(`ExecuteMovedToMemory`), `EMPTY` enters Execute, Fetch, the Command in Decode and `pc` stay, `hazardPending` is
cleared, so that the next tick is no bubble tick (R332). The zero EX latches, the fields of `EMPTY`, the zero of an
unused latch and the `WBval` of an occupant that writes no register are decision D10 (log 16). -/
def Obligations.BubbleTickMovesDownstreamOnly : Prop :=
  ∀ s t : State, step s = .next t → t.canAdvance = true → s.hazardPending = true → s.memTaken = false →
    t.pc = s.pc ∧ t.slotF = s.slotF ∧ t.slotD.cmd = s.slotD.cmd ∧ t.slotD.ipc = s.slotD.ipc ∧
    t.slotE = Slot.empty ∧ ExecuteMovedToMemory s t ∧ t.slotW = s.slotM ∧
    t.wbVal = (if s.slotM.cmd.opcode = .load then t.memLoad else s.memRes) ∧
    t.hazardPending = false ∧ t.exRes = 0 ∧ t.exTaken = false ∧ t.exTarget = 0

/-- A tick stalls iff Memory holds a LOAD whose read is not ready (R28, R254), and then nothing moves: `pc`, the
occupants, the MEM latches, `MEMload`, `WBval`, `hazardPending` and data memory stay; `slot[W]` stays in a first
stalled tick and is cleared in a retry tick (R253, R264, C4). -/
def Obligations.StalledTickMovesNothing : Prop :=
  ∀ s t : State, step s = .next t →
    (t.canAdvance = false ↔ s.slotM.cmd.opcode = .load ∧ ready s (s.tick + 1) = false) ∧
    (t.canAdvance = false →
      t.pc = s.pc ∧ t.slotF = s.slotF ∧ t.slotD.cmd = s.slotD.cmd ∧ t.slotD.ipc = s.slotD.ipc ∧
      t.slotE.cmd = s.slotE.cmd ∧ t.slotE.ipc = s.slotE.ipc ∧ t.slotM = s.slotM ∧
      t.memRes = s.memRes ∧ t.memTaken = s.memTaken ∧ t.memTarget = s.memTarget ∧ t.memLoad = s.memLoad ∧
      t.wbVal = s.wbVal ∧ t.hazardPending = s.hazardPending ∧ t.dmem = s.dmem ∧
      t.slotW = (if s.canAdvance then s.slotW else Slot.empty))

/-- The tick in which the read succeeds advances (R254, decision D21, C5, log 21), retry tick or not: the LOAD moves
to Write-Back with the value of that one call. -/
def Obligations.ReadyReadAdvancesInItsOwnTick : Prop :=
  ∀ s t : State, step s = .next t → s.slotM.cmd.opcode = .load → ready s (s.tick + 1) = true →
    t.canAdvance = true ∧ t.slotW = s.slotM ∧ t.memLoad = readWord s.dmem s.memRes ∧
    t.wbVal = readWord s.dmem s.memRes

/-- The port calls of one tick, in order (R60 to R62, R268): the one `DRead(MEMres)` of a LOAD in Memory or the one
`DWrite(MEMres, slot[M].src1Val)` of a STORE in Memory, then the one `IFetch` of a normal advance, at the new `pc`.
The list `calls` is the model's own output (log 2), and the readiness is asked by tick number (log 3). -/
def Obligations.PortCallsOfOneTick : Prop :=
  ∀ s t : State, step s = .next t →
    t.calls =
      (if s.slotM.cmd.opcode = .load then
          [.dread s.memRes (if ready s (s.tick + 1) then some (readWord s.dmem s.memRes) else none)]
        else if s.slotM.cmd.opcode = .store then [.dwrite s.memRes s.slotM.src1Val]
        else []) ++
      (if t.canAdvance = true ∧ ¬(s.hazardPending = true ∧ s.memTaken = false) then [.ifetch t.pc] else [])

/-- Data memory changes only by the STORE in Memory (R62, R73, R187): its word at `MEMres`, no other byte; and the
registers only by Write-Back's occupant (R22, R190): ADD, SUB or LOAD, its destination, `WBval`. -/
def Obligations.OneTickWritesOneRegisterAndOneWord : Prop :=
  ∀ s t : State, step s = .next t →
    t.regs = (if writesRegister s.slotW.cmd.opcode then
      s.regs.set s.slotW.cmd.dstIndex.toNat s.wbVal s.slotW.cmd.dstIndex.isLt else s.regs) ∧
    (s.slotM.cmd.opcode ≠ .store → t.dmem = s.dmem) ∧
    (s.slotM.cmd.opcode = .store → Memory.wf s.dmem = true →
      readWord t.dmem s.memRes = s.slotM.src1Val ∧
      ∀ a : Nat, ¬(s.memRes.toNat ≤ a ∧ a < s.memRes.toNat + 4) → readByte t.dmem a = readByte s.dmem a)

/-- No tick changes instruction memory (R76, decision D15, log 25), the parameters (R267) or the readiness oracle
(R69, log 3); ticks are counted one by one. -/
def Obligations.OneTickLeavesTheEnvironmentAlone : Prop :=
  ∀ s t : State, step s = .next t →
    t.imem = s.imem ∧ t.irec = s.irec ∧ t.cfg = s.cfg ∧ t.readyDefault = s.readyDefault ∧
    t.readyExcept = s.readyExcept ∧ t.tick = s.tick + 1

/-- Same-cycle write-then-read (R181, R191): the register Write-Back writes in a tick is read with its new value by
Decode in that tick; after the tick it stands in the register file, and in Execute if the pair moved on. -/
def Obligations.DecodeReadsWhatWriteBackWrites : Prop :=
  ∀ s t : State, step s = .next t → s.canAdvance = true → writesRegister s.slotW.cmd.opcode = true →
    readReg t s.slotW.cmd.dstIndex = s.wbVal ∧
    (t.canAdvance = true → s.hazardPending = false → s.memTaken = false →
      (s.slotD.cmd.src1Index = s.slotW.cmd.dstIndex → t.slotE.src1Val = s.wbVal) ∧
      (s.slotD.cmd.isSrc2Immediate = false → s.slotD.cmd.src2Index = s.slotW.cmd.dstIndex →
        t.slotE.src2Val = s.wbVal) ∧
      (s.slotD.cmd.dstIndex = s.slotW.cmd.dstIndex → t.slotE.dstVal = s.wbVal))

/-- A tick goes on whenever none of the undefined inputs occurs (R268, R290): the LOAD or STORE in Memory has an
aligned address, and, only if the tick ends in a normal advance (neither stalled nor a bubble, R254, R255, R261), the
address it fetches from holds a Command. -/
def Obligations.TickGoesOnWithoutUndefinedInputs : Prop :=
  ∀ s : State,
    (s.slotM.cmd.opcode = .load ∨ s.slotM.cmd.opcode = .store → aligned s.memRes = true) →
    (¬(s.slotM.cmd.opcode = .load ∧ ready s (s.tick + 1) = false) →
      ¬(s.hazardPending = true ∧ s.memTaken = false) → ∃ c, ifetch s (nextPc s) = .next c) →
    ∃ t, step s = .next t

/-- A tick stops on the undefined inputs (R65, R100, R291; decisions D13 and D16, log 10, 11, 12): a misaligned LOAD
or STORE in Memory refuses; every normal advance, whatever is in Memory, whose fetch faults or refuses stops by that
reason. -/
def Obligations.UndefinedInputsStopTheTick : Prop :=
  ∀ s : State,
    (s.slotM.cmd.opcode = .load ∨ s.slotM.cmd.opcode = .store → aligned s.memRes = false →
      step s = .refused .misalignedDataAddress) ∧
    ((s.slotM.cmd.opcode = .load ∨ s.slotM.cmd.opcode = .store → aligned s.memRes = true) →
      ¬(s.slotM.cmd.opcode = .load ∧ ready s (s.tick + 1) = false) →
      ¬(s.hazardPending = true ∧ s.memTaken = false) →
      (∀ r, ifetch s (nextPc s) = .fault r → step s = .fault r) ∧
      (∀ r, ifetch s (nextPc s) = .refused r → step s = .refused r))

/-- What the fetch port answers (R60, R65, R68, R97, R100, U1 to U4; log 11, 12): a misaligned address is refused;
else a record given at the address is checked, else the packed word there is decoded; each rejection by its own name.
That a record goes before the packed word at its address is the model's own two-list instruction memory (DESIGN
CHOICE, log 7), and the packed word in bytes is decision D7 and D12 (log 26). -/
def Obligations.FetchPortAnswersByName : Prop :=
  ∀ (s : State) (a : Word),
    (aligned a = false → ifetch s a = .refused .misalignedInstructionAddress) ∧
    (aligned a = true → lookup none s.irec a.toNat = none →
      (∀ i, decode s.cfg.nregs (readWord s.imem a) = .ok i → ifetch s a = .next i) ∧
      (decode s.cfg.nregs (readWord s.imem a) = .error .unknownOpcode → ifetch s a = .refused .unknownOpcodeWord) ∧
      (decode s.cfg.nregs (readWord s.imem a) = .error .reservedEncoding → ifetch s a = .refused .reservedEncoding) ∧
      (decode s.cfg.nregs (readWord s.imem a) = .error .registerIndexOutOfRange →
        ifetch s a = .fault .registerIndexOutOfRange)) ∧
    (∀ r, aligned a = true → lookup none s.irec a.toNat = some r →
      (∀ i, r.check s.cfg.nregs = .ok i → ifetch s a = .next i) ∧
      (r.check s.cfg.nregs = .error .unknownOpcode → ifetch s a = .fault .unknownOpcode) ∧
      (r.check s.cfg.nregs = .error .registerIndexOutOfRange → ifetch s a = .fault .registerIndexOutOfRange))

/-! ### Many ticks -/

/-- A stall of any length freezes the pipeline (R264, V7): while the read of the LOAD in Memory is not ready (log 3),
`k` ticks go on and leave `pc`, every occupant and its values in Fetch, Decode, Execute and Memory, every latch,
`hazardPending` and data memory as they were, and each tick makes the same one call. -/
def Obligations.StallOfAnyLengthFreezesThePipeline : Prop :=
  ∀ (k : Nat) (s : State), s.canAdvance = false → s.slotM.cmd.opcode = .load → aligned s.memRes = true →
    (∀ j, j < k → ready s (s.tick + j + 1) = false) →
    ∃ t, RunsTo k s t ∧ t.canAdvance = false ∧ t.pc = s.pc ∧
      t.slotF = s.slotF ∧ t.slotD = s.slotD ∧ t.slotE = s.slotE ∧ t.slotM = s.slotM ∧
      t.exRes = s.exRes ∧ t.exTaken = s.exTaken ∧ t.exTarget = s.exTarget ∧
      t.memRes = s.memRes ∧ t.memTaken = s.memTaken ∧ t.memTarget = s.memTarget ∧ t.memLoad = s.memLoad ∧
      t.wbVal = s.wbVal ∧ t.hazardPending = s.hazardPending ∧ t.dmem = s.dmem ∧
      (0 < k → t.slotW = Slot.empty ∧ t.calls = [.dread s.memRes none])

/-- The invariants of R269 hold after `reset()` for every program, parameters and data memory, and the instruction
level begins there with it (R37, R38): so in particular in the start state. The canonical memory (log 8), the resting
`stage` (log 1) and the instruction level's state (log 30) are the model's own. -/
def Obligations.ResetSatisfiesTheInvariant : Prop :=
  (∀ s t : State, s.cfg.wf = true → Memory.wf s.dmem = true → coreReset s = .next t →
    Inv t ∧ Coherent t ∧ Agrees t (archReset s)) ∧
  Inv State.reset ∧ Coherent State.reset

/-- Every tick keeps the invariants of R269, from every state that satisfies them; the canonical memory (log 8) and
the resting `stage` (log 1) in `Inv` are the model's own, and its bubbles are those of log 32. -/
def Obligations.EveryTickKeepsTheInvariant : Prop :=
  ∀ s t : State, Inv s → step s = .next t → Inv t

/-- Every tick keeps the operand values of Execute those of the register file (R143, R191, R225, R228), from every
state that satisfies the invariants. That an unused latch of a stalled occupant is 0 is decision D10 (log 16). -/
def Obligations.EveryTickKeepsOperandsCoherent : Prop :=
  ∀ s t : State, Inv s → Coherent s → step s = .next t → Coherent t

/-- The two levels agree, tick by tick (R12, R125, R325, R326; the instruction level is the second machine of log 30).
With everything older than the occupant of Execute completed: a stalled tick and a flush tick complete nothing more;
any other tick completes exactly the occupant of Execute as the instruction level says, registers and data memory
alike, and the latched redirect is the instruction level's next address. The one exception is the STORE-base hazard of
R326, ruled out as a premise. A LOAD or STORE whose address is misaligned is refused at the instruction level, and its
latched address shows it: that refusal is decision D13 (log 10). `EveryTickIsOneInstructionOrNone` ties the next
address to the occupants behind. -/
def Obligations.TicksFollowTheInstructionLevel : Prop :=
  ∀ s t : State, Inv s → Coherent s → NoStoreBaseHazard s → step s = .next t →
    ((t.canAdvance = false ∨ s.memTaken = true) →
      completedRegs t = completedRegs s ∧ completedDmem t = completedDmem s) ∧
    (t.canAdvance = true → s.memTaken = false →
      (archExec s.cfg s.slotE.cmd (archAt s) = .refused .misalignedDataAddress ∧ aligned t.memRes = false) ∨
      (∃ m, archExec s.cfg s.slotE.cmd (archAt s) = .next m ∧
        m.regs = completedRegs t ∧ m.dmem = completedDmem t ∧
        m.pc = if t.memTaken then t.memTarget else s.slotE.ipc + 4))

/-- One instruction alone (R120 to R122, R140, R141, R160 to R162, R124, R146, R165, R270): from a pipeline that holds
it in Fetch and nothing else, with NOPs behind it and at its target and the data memory ready in its Memory tick, five
ticks complete it as the instruction level says: registers, data memory, and `pc` sequential or one past the target.
-/
def Obligations.LoneInstructionCompletesInFiveTicks : Prop :=
  ∀ (s : State) (m : Arch), Inv s → Drained s →
    archExec s.cfg s.slotF.cmd { pc := s.pc, regs := s.regs, dmem := s.dmem } = .next m →
    NopsFrom s (s.pc + 4) 5 → NopsFrom s m.pc 2 → ready s (s.tick + 4) = true →
    ∃ t, RunsTo 5 s t ∧ t.regs = m.regs ∧ t.dmem = m.dmem ∧
      t.pc = if archTaken { pc := s.pc, regs := s.regs, dmem := s.dmem } s.slotF.cmd then m.pc + 4 else s.pc + 20

/-! ### Memories -/

/-- A word read after a word written, both at multiples of 4 (R68: "two different multiples of 4 never alias"). -/
def Obligations.WordReadAfterWordWritten : Prop :=
  ∀ (m : List Host.Cell) (a b v : Word), Memory.wf m = true → aligned a = true → aligned b = true →
    readWord (writeWord m a v) b = if b = a then v else readWord m b

/-- Canonical memories that read alike at every address are equal data, so a write back of what is there changes
nothing. The canonical form is the model's own (log 8). -/
def Obligations.CanonicalMemoryIsItsContents : Prop :=
  (∀ m m' : List Host.Cell, Memory.wf m = true → Memory.wf m' = true →
    (∀ a, readByte m a = readByte m' a) → m = m') ∧
  (∀ (m : List Host.Cell) (a : Word), Memory.wf m = true → aligned a = true → writeWord m a (readWord m a) = m)

/-! ### Reset and observation -/

/-- `reset()` (R37, R38, R320, R323; the values of flags and latches are decision D11, log 17, the zero fields of
slots D10, log 16, the tick count and the kept environment log 29, the resting `stage` log 1): it goes on whenever the
fetch at `ENTRY_PC` answers a Command and stops by the fetch's reason otherwise (U1 to U4); from any state the core's
part is then the start state and the environment's part is as before; one `IFetch`, no data access. -/
def Obligations.ResetDiscardsEverythingInFlight : Prop :=
  ∀ s : State,
    (∀ c, ifetch s s.cfg.entryPc = .next c → ∃ t, coreReset s = .next t) ∧
    (∀ r, ifetch s s.cfg.entryPc = .fault r → coreReset s = .fault r) ∧
    (∀ r, ifetch s s.cfg.entryPc = .refused r → coreReset s = .refused r) ∧
    (∀ t, coreReset s = .next t →
      t.pc = s.cfg.entryPc ∧ (∀ r : RegIdx, readReg t r = 0) ∧
      ifetch s s.cfg.entryPc = .next t.slotF.cmd ∧ t.slotF = Slot.fetched t.slotF.cmd s.cfg.entryPc ∧
      t.slotD = Slot.empty ∧ t.slotE = Slot.empty ∧ t.slotM = Slot.empty ∧ t.slotW = Slot.empty ∧
      t.exRes = 0 ∧ t.exTaken = false ∧ t.exTarget = 0 ∧ t.memRes = 0 ∧ t.memTaken = false ∧ t.memTarget = 0 ∧
      t.memLoad = 0 ∧ t.wbVal = 0 ∧ t.canAdvance = true ∧ t.hazardPending = false ∧ t.stage = .fetch ∧
      t.calls = [.ifetch s.cfg.entryPc] ∧ t.tick = 0 ∧
      t.cfg = s.cfg ∧ t.imem = s.imem ∧ t.irec = s.irec ∧ t.dmem = s.dmem ∧
      t.readyDefault = s.readyDefault ∧ t.readyExcept = s.readyExcept)

/-- The start state is what `reset()` gives with empty memories and the parameters of R6 (R37; log 4, 5, 8, 9, 17). -/
def Obligations.StartStateIsReset : Prop := coreReset State.reset = .next State.reset

/-- `getState()` shows exactly `pc`, the `NREGS` registers and the visible fields of the five slots (R36): two states
show the same snapshot iff they agree on those, whatever their hidden fields, latches, flags and memories. -/
def Obligations.SnapshotShowsExactlyTheMachineState : Prop :=
  ∀ s t : State, t.cfg.nregs = s.cfg.nregs →
    (getState t = getState s ↔
      t.pc = s.pc ∧ (∀ r : RegIdx, r.toNat < s.cfg.nregs → readReg t r = readReg s r) ∧
      visibleSlot t.slotF = visibleSlot s.slotF ∧ visibleSlot t.slotD = visibleSlot s.slotD ∧
      visibleSlot t.slotE = visibleSlot s.slotE ∧ visibleSlot t.slotM = visibleSlot s.slotM ∧
      visibleSlot t.slotW = visibleSlot s.slotW)

/-! ### The two levels over a program -/

/-- The hazard of R326 in one tick: a STORE directly behind a LOAD of its base register moves to Memory with its
address formed from the value the base register had before the LOAD (Write-Back's if the instruction two ahead writes
it, else the register file's), its offset and data are as the instruction level says, and the LOAD is unaffected. -/
def Obligations.StoreBehindLoadCompletesWithTheOldBase : Prop :=
  ∀ s t : State, Inv s → Coherent s → step s = .next t → t.canAdvance = true →
    s.slotM.cmd.opcode = .load → s.slotE.cmd.opcode = .store → s.slotE.cmd.dstIndex = s.slotM.cmd.dstIndex →
    t.slotM.cmd = s.slotE.cmd ∧
    t.memRes = (if writesRegister s.slotW.cmd.opcode = true ∧ s.slotW.cmd.dstIndex = s.slotE.cmd.dstIndex then s.wbVal
      else readReg s s.slotE.cmd.dstIndex) + archOp2 (archAt s) s.slotE.cmd ∧
    t.slotM.src1Val = archReg (archAt s) s.slotE.cmd.src1Index ∧
    t.slotW = s.slotM ∧ t.wbVal = readWord s.dmem s.memRes ∧ completedRegs t = completedRegs s

/-- The two levels agree over a program, as a simulation step (R12, R125, R325; the instruction level is the second
machine of log 30). From a state that agrees with an instruction-level state, and without the hazard of R326: a stalled
tick and a flush tick keep the agreement; any other tick either moved a bubble on (the all-zero NOP at address 0, log
32) and keeps it, or agrees with the instruction level one instruction later, the instruction being the one in memory
at the instruction level's own address; or that instruction is a LOAD or STORE at a misaligned address, which the
instruction level refuses and the next tick refuses (decision D13, log 10). -/
def Obligations.EveryTickIsOneInstructionOrNone : Prop :=
  ∀ (s t : State) (m : Arch), Inv s → Coherent s → NoStoreBaseHazard s → Agrees s m → step s = .next t →
    ((t.canAdvance = false ∨ s.memTaken = true) → Agrees t m) ∧
    (t.canAdvance = true → s.memTaken = false →
      (s.slotE.cmd = .emptyNop ∧ s.slotE.ipc = 0 ∧ Agrees t m) ∨
      (∃ n, archStep s m = .next n ∧ Agrees t n) ∨
      (archStep s m = .refused .misalignedDataAddress ∧ step t = .refused .misalignedDataAddress))

/-- The two levels agree over a whole run (R12): after any number of ticks from a state that agrees with an
instruction-level state, with the hazard of R326 nowhere on the way, the pipeline agrees with the instruction level
after some number of instructions, no more than ticks; or the instruction level's next instruction is a misaligned
LOAD or STORE, which both levels refuse (decision D13, log 10). The instruction level is the second machine of log 30.
-/
def Obligations.RunsFollowTheInstructionLevel : Prop :=
  ∀ (k : Nat) (s t : State) (m : Arch), Inv s → Coherent s → Agrees s m →
    (∀ j u, j < k → RunsTo j s u → NoStoreBaseHazard u) → RunsTo k s t →
    ∃ j n, j ≤ k ∧ ArchRunsTo s j m n ∧
      (Agrees t n ∨ (archStep s n = .refused .misalignedDataAddress ∧ step t = .refused .misalignedDataAddress))
end

