-- ==== Sys2Proof/Laws/Encoding.lean ====
section
/-! SUPPORT. The small lemmas of the Command record and of the decoder: what `Instr.ofFields` holds, when an opcode
number is one of the eight, and the one lemma that says when `decode` answers a Command. -/

namespace Sys2Proof

@[simp] theorem Instr.ofFields_opcode (op : Opcode) (m : Bool) (d a b : RegIdx) (n : Word) :
    (Instr.ofFields op m d a b n).opcode = op := by cases op <;> cases m <;> rfl

@[simp] theorem Instr.ofFields_isSrc2Immediate (op : Opcode) (m : Bool) (d a b : RegIdx) (n : Word) :
    (Instr.ofFields op m d a b n).isSrc2Immediate = m := by cases op <;> cases m <;> rfl

@[simp] theorem Instr.ofFields_operands (op : Opcode) (m : Bool) (d a b : RegIdx) (n : Word) :
    (Instr.ofFields op m d a b n).operands = (d, a, b, n) := by cases op <;> cases m <;> rfl

/-- A Command is its record fields (R90). -/
theorem Instr.ofFields_eta (i : Instr) :
    Instr.ofFields i.opcode i.isSrc2Immediate i.dstIndex i.src1Index i.src2Index i.immediateValue = i := by
  cases i <;> rfl

/-- The field `op` names an opcode iff it is that opcode's number (R95). -/
theorem Opcode.ofNumber_eq_some (x : BitVec 4) (op : Opcode) :
    Opcode.ofNumber x.toNat = some op ↔ x = op.number := by
  revert x; cases op <;> decide

/-- No opcode has a number of 8 or more (R95). -/
theorem Opcode.ofNumber_eq_none (x : BitVec 4) : Opcode.ofNumber x.toNat = none ↔ 8 ≤ x.toNat := by
  revert x; decide

theorem Opcode.number_inj (a b : Opcode) (h : a.number = b.number) : a = b := by
  revert h; cases a <;> cases b <;> decide

/-- Everything `decode` accepts (R97): the opcode's number, bit 26 clear, the indices in range, and either form. -/
theorem decode_eq_ok (nregs : Nat) (w : Word) (i : Instr) :
    decode nregs w = .ok i ↔ ∃ op : Opcode, opField w = op.number ∧ reservedBit w = false ∧
      i.indicesBelow nregs = true ∧
      ((immFlag w = true ∧ i = .ofFields op true (dstField w) (src1Field w) 0 (sext16 (imm16Field w))) ∨
        (immFlag w = false ∧ zeroField w = 0 ∧
          i = .ofFields op false (dstField w) (src1Field w) (src2Field w) 0)) := by
  unfold decode checkIndices
  split
  · rename_i h
    rw [Opcode.ofNumber_eq_none] at h
    refine ⟨fun hd => by simp at hd, ?_⟩
    rintro ⟨op, ho, -⟩
    exfalso
    rw [ho] at h
    revert h; cases op <;> decide
  · rename_i op h
    rw [Opcode.ofNumber_eq_some] at h
    constructor
    · intro hd
      refine ⟨op, h, ?_⟩
      split at hd
      · cases hd
      · rename_i hr
        refine ⟨by simpa using hr, ?_⟩
        split at hd
        · split at hd <;> cases hd
          exact ⟨‹_›, .inl ⟨‹_›, rfl⟩⟩
        · split at hd
          · split at hd <;> cases hd
            exact ⟨‹_›, .inr ⟨by simpa using ‹¬immFlag w = true›, ‹_›, rfl⟩⟩
          · cases hd
    · rintro ⟨op', ho, hr, hb, ⟨hi, rfl⟩ | ⟨hi, hz, rfl⟩⟩ <;>
        have hop := Opcode.number_inj op' op (ho.symm.trans h) <;> subst hop
      · simp only [hr, hi, Bool.false_eq_true, if_false, if_true]; rw [if_pos hb]
      · simp only [hr, hi, hz, Bool.false_eq_true, if_false, if_true]; rw [if_pos hb]

end Sys2Proof
end

