-- ==== Sys2Proof/Laws/State.lean ====
section
/-! SUPPORT. One lemma per field per update of the state, true by `rfl`: no proof unfolds a record update. -/

namespace Sys2Proof.Machine

variable (s : State)

/-! `atStage` -/
@[simp] theorem atStage_cfg (st : Stage) : (atStage st s).cfg = s.cfg := rfl
@[simp] theorem atStage_pc (st : Stage) : (atStage st s).pc = s.pc := rfl
@[simp] theorem atStage_regs (st : Stage) : (atStage st s).regs = s.regs := rfl
@[simp] theorem atStage_slotF (st : Stage) : (atStage st s).slotF = s.slotF := rfl
@[simp] theorem atStage_slotD (st : Stage) : (atStage st s).slotD = s.slotD := rfl
@[simp] theorem atStage_slotE (st : Stage) : (atStage st s).slotE = s.slotE := rfl
@[simp] theorem atStage_slotM (st : Stage) : (atStage st s).slotM = s.slotM := rfl
@[simp] theorem atStage_slotW (st : Stage) : (atStage st s).slotW = s.slotW := rfl
@[simp] theorem atStage_exRes (st : Stage) : (atStage st s).exRes = s.exRes := rfl
@[simp] theorem atStage_exTaken (st : Stage) : (atStage st s).exTaken = s.exTaken := rfl
@[simp] theorem atStage_exTarget (st : Stage) : (atStage st s).exTarget = s.exTarget := rfl
@[simp] theorem atStage_memRes (st : Stage) : (atStage st s).memRes = s.memRes := rfl
@[simp] theorem atStage_memTaken (st : Stage) : (atStage st s).memTaken = s.memTaken := rfl
@[simp] theorem atStage_memTarget (st : Stage) : (atStage st s).memTarget = s.memTarget := rfl
@[simp] theorem atStage_memLoad (st : Stage) : (atStage st s).memLoad = s.memLoad := rfl
@[simp] theorem atStage_wbVal (st : Stage) : (atStage st s).wbVal = s.wbVal := rfl
@[simp] theorem atStage_canAdvance (st : Stage) : (atStage st s).canAdvance = s.canAdvance := rfl
@[simp] theorem atStage_hazardPending (st : Stage) : (atStage st s).hazardPending = s.hazardPending := rfl
@[simp] theorem atStage_stage (st : Stage) : (atStage st s).stage = st := rfl
@[simp] theorem atStage_imem (st : Stage) : (atStage st s).imem = s.imem := rfl
@[simp] theorem atStage_irec (st : Stage) : (atStage st s).irec = s.irec := rfl
@[simp] theorem atStage_dmem (st : Stage) : (atStage st s).dmem = s.dmem := rfl
@[simp] theorem atStage_readyDefault (st : Stage) : (atStage st s).readyDefault = s.readyDefault := rfl
@[simp] theorem atStage_readyExcept (st : Stage) : (atStage st s).readyExcept = s.readyExcept := rfl
@[simp] theorem atStage_tick (st : Stage) : (atStage st s).tick = s.tick := rfl
@[simp] theorem atStage_calls (st : Stage) : (atStage st s).calls = s.calls := rfl

/-! `writeReg` -/
@[simp] theorem writeReg_cfg (r : RegIdx) (v : Word) : (writeReg r v s).cfg = s.cfg := rfl
@[simp] theorem writeReg_pc (r : RegIdx) (v : Word) : (writeReg r v s).pc = s.pc := rfl
@[simp] theorem writeReg_regs (r : RegIdx) (v : Word) : (writeReg r v s).regs = s.regs.set r.toNat v r.isLt := rfl
@[simp] theorem writeReg_slotF (r : RegIdx) (v : Word) : (writeReg r v s).slotF = s.slotF := rfl
@[simp] theorem writeReg_slotD (r : RegIdx) (v : Word) : (writeReg r v s).slotD = s.slotD := rfl
@[simp] theorem writeReg_slotE (r : RegIdx) (v : Word) : (writeReg r v s).slotE = s.slotE := rfl
@[simp] theorem writeReg_slotM (r : RegIdx) (v : Word) : (writeReg r v s).slotM = s.slotM := rfl
@[simp] theorem writeReg_slotW (r : RegIdx) (v : Word) : (writeReg r v s).slotW = s.slotW := rfl
@[simp] theorem writeReg_exRes (r : RegIdx) (v : Word) : (writeReg r v s).exRes = s.exRes := rfl
@[simp] theorem writeReg_exTaken (r : RegIdx) (v : Word) : (writeReg r v s).exTaken = s.exTaken := rfl
@[simp] theorem writeReg_exTarget (r : RegIdx) (v : Word) : (writeReg r v s).exTarget = s.exTarget := rfl
@[simp] theorem writeReg_memRes (r : RegIdx) (v : Word) : (writeReg r v s).memRes = s.memRes := rfl
@[simp] theorem writeReg_memTaken (r : RegIdx) (v : Word) : (writeReg r v s).memTaken = s.memTaken := rfl
@[simp] theorem writeReg_memTarget (r : RegIdx) (v : Word) : (writeReg r v s).memTarget = s.memTarget := rfl
@[simp] theorem writeReg_memLoad (r : RegIdx) (v : Word) : (writeReg r v s).memLoad = s.memLoad := rfl
@[simp] theorem writeReg_wbVal (r : RegIdx) (v : Word) : (writeReg r v s).wbVal = s.wbVal := rfl
@[simp] theorem writeReg_canAdvance (r : RegIdx) (v : Word) : (writeReg r v s).canAdvance = s.canAdvance := rfl
@[simp] theorem writeReg_hazardPending (r : RegIdx) (v : Word) : (writeReg r v s).hazardPending = s.hazardPending := rfl
@[simp] theorem writeReg_stage (r : RegIdx) (v : Word) : (writeReg r v s).stage = s.stage := rfl
@[simp] theorem writeReg_imem (r : RegIdx) (v : Word) : (writeReg r v s).imem = s.imem := rfl
@[simp] theorem writeReg_irec (r : RegIdx) (v : Word) : (writeReg r v s).irec = s.irec := rfl
@[simp] theorem writeReg_dmem (r : RegIdx) (v : Word) : (writeReg r v s).dmem = s.dmem := rfl
@[simp] theorem writeReg_readyDefault (r : RegIdx) (v : Word) : (writeReg r v s).readyDefault = s.readyDefault := rfl
@[simp] theorem writeReg_readyExcept (r : RegIdx) (v : Word) : (writeReg r v s).readyExcept = s.readyExcept := rfl
@[simp] theorem writeReg_tick (r : RegIdx) (v : Word) : (writeReg r v s).tick = s.tick := rfl
@[simp] theorem writeReg_calls (r : RegIdx) (v : Word) : (writeReg r v s).calls = s.calls := rfl

/-! `setDecodeVals` -/
@[simp] theorem setDecodeVals_cfg (a b d : Word) : (setDecodeVals a b d s).cfg = s.cfg := rfl
@[simp] theorem setDecodeVals_pc (a b d : Word) : (setDecodeVals a b d s).pc = s.pc := rfl
@[simp] theorem setDecodeVals_regs (a b d : Word) : (setDecodeVals a b d s).regs = s.regs := rfl
@[simp] theorem setDecodeVals_slotF (a b d : Word) : (setDecodeVals a b d s).slotF = s.slotF := rfl
@[simp] theorem setDecodeVals_slotD (a b d : Word) : (setDecodeVals a b d s).slotD = { s.slotD with src1Val := a, src2Val := b, dstVal := d } := rfl
@[simp] theorem setDecodeVals_slotE (a b d : Word) : (setDecodeVals a b d s).slotE = s.slotE := rfl
@[simp] theorem setDecodeVals_slotM (a b d : Word) : (setDecodeVals a b d s).slotM = s.slotM := rfl
@[simp] theorem setDecodeVals_slotW (a b d : Word) : (setDecodeVals a b d s).slotW = s.slotW := rfl
@[simp] theorem setDecodeVals_exRes (a b d : Word) : (setDecodeVals a b d s).exRes = s.exRes := rfl
@[simp] theorem setDecodeVals_exTaken (a b d : Word) : (setDecodeVals a b d s).exTaken = s.exTaken := rfl
@[simp] theorem setDecodeVals_exTarget (a b d : Word) : (setDecodeVals a b d s).exTarget = s.exTarget := rfl
@[simp] theorem setDecodeVals_memRes (a b d : Word) : (setDecodeVals a b d s).memRes = s.memRes := rfl
@[simp] theorem setDecodeVals_memTaken (a b d : Word) : (setDecodeVals a b d s).memTaken = s.memTaken := rfl
@[simp] theorem setDecodeVals_memTarget (a b d : Word) : (setDecodeVals a b d s).memTarget = s.memTarget := rfl
@[simp] theorem setDecodeVals_memLoad (a b d : Word) : (setDecodeVals a b d s).memLoad = s.memLoad := rfl
@[simp] theorem setDecodeVals_wbVal (a b d : Word) : (setDecodeVals a b d s).wbVal = s.wbVal := rfl
@[simp] theorem setDecodeVals_canAdvance (a b d : Word) : (setDecodeVals a b d s).canAdvance = s.canAdvance := rfl
@[simp] theorem setDecodeVals_hazardPending (a b d : Word) : (setDecodeVals a b d s).hazardPending = s.hazardPending := rfl
@[simp] theorem setDecodeVals_stage (a b d : Word) : (setDecodeVals a b d s).stage = s.stage := rfl
@[simp] theorem setDecodeVals_imem (a b d : Word) : (setDecodeVals a b d s).imem = s.imem := rfl
@[simp] theorem setDecodeVals_irec (a b d : Word) : (setDecodeVals a b d s).irec = s.irec := rfl
@[simp] theorem setDecodeVals_dmem (a b d : Word) : (setDecodeVals a b d s).dmem = s.dmem := rfl
@[simp] theorem setDecodeVals_readyDefault (a b d : Word) : (setDecodeVals a b d s).readyDefault = s.readyDefault := rfl
@[simp] theorem setDecodeVals_readyExcept (a b d : Word) : (setDecodeVals a b d s).readyExcept = s.readyExcept := rfl
@[simp] theorem setDecodeVals_tick (a b d : Word) : (setDecodeVals a b d s).tick = s.tick := rfl
@[simp] theorem setDecodeVals_calls (a b d : Word) : (setDecodeVals a b d s).calls = s.calls := rfl

/-! `setExecuteVals` -/
@[simp] theorem setExecuteVals_cfg (a b d : Word) : (setExecuteVals a b d s).cfg = s.cfg := rfl
@[simp] theorem setExecuteVals_pc (a b d : Word) : (setExecuteVals a b d s).pc = s.pc := rfl
@[simp] theorem setExecuteVals_regs (a b d : Word) : (setExecuteVals a b d s).regs = s.regs := rfl
@[simp] theorem setExecuteVals_slotF (a b d : Word) : (setExecuteVals a b d s).slotF = s.slotF := rfl
@[simp] theorem setExecuteVals_slotD (a b d : Word) : (setExecuteVals a b d s).slotD = s.slotD := rfl
@[simp] theorem setExecuteVals_slotE (a b d : Word) : (setExecuteVals a b d s).slotE = { s.slotE with src1Val := a, src2Val := b, dstVal := d } := rfl
@[simp] theorem setExecuteVals_slotM (a b d : Word) : (setExecuteVals a b d s).slotM = s.slotM := rfl
@[simp] theorem setExecuteVals_slotW (a b d : Word) : (setExecuteVals a b d s).slotW = s.slotW := rfl
@[simp] theorem setExecuteVals_exRes (a b d : Word) : (setExecuteVals a b d s).exRes = s.exRes := rfl
@[simp] theorem setExecuteVals_exTaken (a b d : Word) : (setExecuteVals a b d s).exTaken = s.exTaken := rfl
@[simp] theorem setExecuteVals_exTarget (a b d : Word) : (setExecuteVals a b d s).exTarget = s.exTarget := rfl
@[simp] theorem setExecuteVals_memRes (a b d : Word) : (setExecuteVals a b d s).memRes = s.memRes := rfl
@[simp] theorem setExecuteVals_memTaken (a b d : Word) : (setExecuteVals a b d s).memTaken = s.memTaken := rfl
@[simp] theorem setExecuteVals_memTarget (a b d : Word) : (setExecuteVals a b d s).memTarget = s.memTarget := rfl
@[simp] theorem setExecuteVals_memLoad (a b d : Word) : (setExecuteVals a b d s).memLoad = s.memLoad := rfl
@[simp] theorem setExecuteVals_wbVal (a b d : Word) : (setExecuteVals a b d s).wbVal = s.wbVal := rfl
@[simp] theorem setExecuteVals_canAdvance (a b d : Word) : (setExecuteVals a b d s).canAdvance = s.canAdvance := rfl
@[simp] theorem setExecuteVals_hazardPending (a b d : Word) : (setExecuteVals a b d s).hazardPending = s.hazardPending := rfl
@[simp] theorem setExecuteVals_stage (a b d : Word) : (setExecuteVals a b d s).stage = s.stage := rfl
@[simp] theorem setExecuteVals_imem (a b d : Word) : (setExecuteVals a b d s).imem = s.imem := rfl
@[simp] theorem setExecuteVals_irec (a b d : Word) : (setExecuteVals a b d s).irec = s.irec := rfl
@[simp] theorem setExecuteVals_dmem (a b d : Word) : (setExecuteVals a b d s).dmem = s.dmem := rfl
@[simp] theorem setExecuteVals_readyDefault (a b d : Word) : (setExecuteVals a b d s).readyDefault = s.readyDefault := rfl
@[simp] theorem setExecuteVals_readyExcept (a b d : Word) : (setExecuteVals a b d s).readyExcept = s.readyExcept := rfl
@[simp] theorem setExecuteVals_tick (a b d : Word) : (setExecuteVals a b d s).tick = s.tick := rfl
@[simp] theorem setExecuteVals_calls (a b d : Word) : (setExecuteVals a b d s).calls = s.calls := rfl

/-! `latchEx` -/
@[simp] theorem latchEx_cfg (a : Word) (b : Bool) (c : Word) : (latchEx a b c s).cfg = s.cfg := rfl
@[simp] theorem latchEx_pc (a : Word) (b : Bool) (c : Word) : (latchEx a b c s).pc = s.pc := rfl
@[simp] theorem latchEx_regs (a : Word) (b : Bool) (c : Word) : (latchEx a b c s).regs = s.regs := rfl
@[simp] theorem latchEx_slotF (a : Word) (b : Bool) (c : Word) : (latchEx a b c s).slotF = s.slotF := rfl
@[simp] theorem latchEx_slotD (a : Word) (b : Bool) (c : Word) : (latchEx a b c s).slotD = s.slotD := rfl
@[simp] theorem latchEx_slotE (a : Word) (b : Bool) (c : Word) : (latchEx a b c s).slotE = s.slotE := rfl
@[simp] theorem latchEx_slotM (a : Word) (b : Bool) (c : Word) : (latchEx a b c s).slotM = s.slotM := rfl
@[simp] theorem latchEx_slotW (a : Word) (b : Bool) (c : Word) : (latchEx a b c s).slotW = s.slotW := rfl
@[simp] theorem latchEx_exRes (a : Word) (b : Bool) (c : Word) : (latchEx a b c s).exRes = a := rfl
@[simp] theorem latchEx_exTaken (a : Word) (b : Bool) (c : Word) : (latchEx a b c s).exTaken = b := rfl
@[simp] theorem latchEx_exTarget (a : Word) (b : Bool) (c : Word) : (latchEx a b c s).exTarget = c := rfl
@[simp] theorem latchEx_memRes (a : Word) (b : Bool) (c : Word) : (latchEx a b c s).memRes = s.memRes := rfl
@[simp] theorem latchEx_memTaken (a : Word) (b : Bool) (c : Word) : (latchEx a b c s).memTaken = s.memTaken := rfl
@[simp] theorem latchEx_memTarget (a : Word) (b : Bool) (c : Word) : (latchEx a b c s).memTarget = s.memTarget := rfl
@[simp] theorem latchEx_memLoad (a : Word) (b : Bool) (c : Word) : (latchEx a b c s).memLoad = s.memLoad := rfl
@[simp] theorem latchEx_wbVal (a : Word) (b : Bool) (c : Word) : (latchEx a b c s).wbVal = s.wbVal := rfl
@[simp] theorem latchEx_canAdvance (a : Word) (b : Bool) (c : Word) : (latchEx a b c s).canAdvance = s.canAdvance := rfl
@[simp] theorem latchEx_hazardPending (a : Word) (b : Bool) (c : Word) : (latchEx a b c s).hazardPending = s.hazardPending := rfl
@[simp] theorem latchEx_stage (a : Word) (b : Bool) (c : Word) : (latchEx a b c s).stage = s.stage := rfl
@[simp] theorem latchEx_imem (a : Word) (b : Bool) (c : Word) : (latchEx a b c s).imem = s.imem := rfl
@[simp] theorem latchEx_irec (a : Word) (b : Bool) (c : Word) : (latchEx a b c s).irec = s.irec := rfl
@[simp] theorem latchEx_dmem (a : Word) (b : Bool) (c : Word) : (latchEx a b c s).dmem = s.dmem := rfl
@[simp] theorem latchEx_readyDefault (a : Word) (b : Bool) (c : Word) : (latchEx a b c s).readyDefault = s.readyDefault := rfl
@[simp] theorem latchEx_readyExcept (a : Word) (b : Bool) (c : Word) : (latchEx a b c s).readyExcept = s.readyExcept := rfl
@[simp] theorem latchEx_tick (a : Word) (b : Bool) (c : Word) : (latchEx a b c s).tick = s.tick := rfl
@[simp] theorem latchEx_calls (a : Word) (b : Bool) (c : Word) : (latchEx a b c s).calls = s.calls := rfl

/-! `takeLoad` -/
@[simp] theorem takeLoad_cfg (v : Word) : (takeLoad v s).cfg = s.cfg := rfl
@[simp] theorem takeLoad_pc (v : Word) : (takeLoad v s).pc = s.pc := rfl
@[simp] theorem takeLoad_regs (v : Word) : (takeLoad v s).regs = s.regs := rfl
@[simp] theorem takeLoad_slotF (v : Word) : (takeLoad v s).slotF = s.slotF := rfl
@[simp] theorem takeLoad_slotD (v : Word) : (takeLoad v s).slotD = s.slotD := rfl
@[simp] theorem takeLoad_slotE (v : Word) : (takeLoad v s).slotE = s.slotE := rfl
@[simp] theorem takeLoad_slotM (v : Word) : (takeLoad v s).slotM = s.slotM := rfl
@[simp] theorem takeLoad_slotW (v : Word) : (takeLoad v s).slotW = s.slotW := rfl
@[simp] theorem takeLoad_exRes (v : Word) : (takeLoad v s).exRes = s.exRes := rfl
@[simp] theorem takeLoad_exTaken (v : Word) : (takeLoad v s).exTaken = s.exTaken := rfl
@[simp] theorem takeLoad_exTarget (v : Word) : (takeLoad v s).exTarget = s.exTarget := rfl
@[simp] theorem takeLoad_memRes (v : Word) : (takeLoad v s).memRes = s.memRes := rfl
@[simp] theorem takeLoad_memTaken (v : Word) : (takeLoad v s).memTaken = s.memTaken := rfl
@[simp] theorem takeLoad_memTarget (v : Word) : (takeLoad v s).memTarget = s.memTarget := rfl
@[simp] theorem takeLoad_memLoad (v : Word) : (takeLoad v s).memLoad = v := rfl
@[simp] theorem takeLoad_wbVal (v : Word) : (takeLoad v s).wbVal = s.wbVal := rfl
@[simp] theorem takeLoad_canAdvance (v : Word) : (takeLoad v s).canAdvance = s.canAdvance := rfl
@[simp] theorem takeLoad_hazardPending (v : Word) : (takeLoad v s).hazardPending = s.hazardPending := rfl
@[simp] theorem takeLoad_stage (v : Word) : (takeLoad v s).stage = s.stage := rfl
@[simp] theorem takeLoad_imem (v : Word) : (takeLoad v s).imem = s.imem := rfl
@[simp] theorem takeLoad_irec (v : Word) : (takeLoad v s).irec = s.irec := rfl
@[simp] theorem takeLoad_dmem (v : Word) : (takeLoad v s).dmem = s.dmem := rfl
@[simp] theorem takeLoad_readyDefault (v : Word) : (takeLoad v s).readyDefault = s.readyDefault := rfl
@[simp] theorem takeLoad_readyExcept (v : Word) : (takeLoad v s).readyExcept = s.readyExcept := rfl
@[simp] theorem takeLoad_tick (v : Word) : (takeLoad v s).tick = s.tick := rfl
@[simp] theorem takeLoad_calls (v : Word) : (takeLoad v s).calls = s.calls := rfl

/-! `holdPipeline` -/
@[simp] theorem holdPipeline_cfg : (holdPipeline s).cfg = s.cfg := rfl
@[simp] theorem holdPipeline_pc : (holdPipeline s).pc = s.pc := rfl
@[simp] theorem holdPipeline_regs : (holdPipeline s).regs = s.regs := rfl
@[simp] theorem holdPipeline_slotF : (holdPipeline s).slotF = s.slotF := rfl
@[simp] theorem holdPipeline_slotD : (holdPipeline s).slotD = s.slotD := rfl
@[simp] theorem holdPipeline_slotE : (holdPipeline s).slotE = s.slotE := rfl
@[simp] theorem holdPipeline_slotM : (holdPipeline s).slotM = s.slotM := rfl
@[simp] theorem holdPipeline_slotW : (holdPipeline s).slotW = s.slotW := rfl
@[simp] theorem holdPipeline_exRes : (holdPipeline s).exRes = s.exRes := rfl
@[simp] theorem holdPipeline_exTaken : (holdPipeline s).exTaken = s.exTaken := rfl
@[simp] theorem holdPipeline_exTarget : (holdPipeline s).exTarget = s.exTarget := rfl
@[simp] theorem holdPipeline_memRes : (holdPipeline s).memRes = s.memRes := rfl
@[simp] theorem holdPipeline_memTaken : (holdPipeline s).memTaken = s.memTaken := rfl
@[simp] theorem holdPipeline_memTarget : (holdPipeline s).memTarget = s.memTarget := rfl
@[simp] theorem holdPipeline_memLoad : (holdPipeline s).memLoad = s.memLoad := rfl
@[simp] theorem holdPipeline_wbVal : (holdPipeline s).wbVal = s.wbVal := rfl
@[simp] theorem holdPipeline_canAdvance : (holdPipeline s).canAdvance = false := rfl
@[simp] theorem holdPipeline_hazardPending : (holdPipeline s).hazardPending = s.hazardPending := rfl
@[simp] theorem holdPipeline_stage : (holdPipeline s).stage = s.stage := rfl
@[simp] theorem holdPipeline_imem : (holdPipeline s).imem = s.imem := rfl
@[simp] theorem holdPipeline_irec : (holdPipeline s).irec = s.irec := rfl
@[simp] theorem holdPipeline_dmem : (holdPipeline s).dmem = s.dmem := rfl
@[simp] theorem holdPipeline_readyDefault : (holdPipeline s).readyDefault = s.readyDefault := rfl
@[simp] theorem holdPipeline_readyExcept : (holdPipeline s).readyExcept = s.readyExcept := rfl
@[simp] theorem holdPipeline_tick : (holdPipeline s).tick = s.tick := rfl
@[simp] theorem holdPipeline_calls : (holdPipeline s).calls = s.calls := rfl

/-! `noteCall` -/
@[simp] theorem noteCall_cfg (c : PortCall) : (noteCall c s).cfg = s.cfg := rfl
@[simp] theorem noteCall_pc (c : PortCall) : (noteCall c s).pc = s.pc := rfl
@[simp] theorem noteCall_regs (c : PortCall) : (noteCall c s).regs = s.regs := rfl
@[simp] theorem noteCall_slotF (c : PortCall) : (noteCall c s).slotF = s.slotF := rfl
@[simp] theorem noteCall_slotD (c : PortCall) : (noteCall c s).slotD = s.slotD := rfl
@[simp] theorem noteCall_slotE (c : PortCall) : (noteCall c s).slotE = s.slotE := rfl
@[simp] theorem noteCall_slotM (c : PortCall) : (noteCall c s).slotM = s.slotM := rfl
@[simp] theorem noteCall_slotW (c : PortCall) : (noteCall c s).slotW = s.slotW := rfl
@[simp] theorem noteCall_exRes (c : PortCall) : (noteCall c s).exRes = s.exRes := rfl
@[simp] theorem noteCall_exTaken (c : PortCall) : (noteCall c s).exTaken = s.exTaken := rfl
@[simp] theorem noteCall_exTarget (c : PortCall) : (noteCall c s).exTarget = s.exTarget := rfl
@[simp] theorem noteCall_memRes (c : PortCall) : (noteCall c s).memRes = s.memRes := rfl
@[simp] theorem noteCall_memTaken (c : PortCall) : (noteCall c s).memTaken = s.memTaken := rfl
@[simp] theorem noteCall_memTarget (c : PortCall) : (noteCall c s).memTarget = s.memTarget := rfl
@[simp] theorem noteCall_memLoad (c : PortCall) : (noteCall c s).memLoad = s.memLoad := rfl
@[simp] theorem noteCall_wbVal (c : PortCall) : (noteCall c s).wbVal = s.wbVal := rfl
@[simp] theorem noteCall_canAdvance (c : PortCall) : (noteCall c s).canAdvance = s.canAdvance := rfl
@[simp] theorem noteCall_hazardPending (c : PortCall) : (noteCall c s).hazardPending = s.hazardPending := rfl
@[simp] theorem noteCall_stage (c : PortCall) : (noteCall c s).stage = s.stage := rfl
@[simp] theorem noteCall_imem (c : PortCall) : (noteCall c s).imem = s.imem := rfl
@[simp] theorem noteCall_irec (c : PortCall) : (noteCall c s).irec = s.irec := rfl
@[simp] theorem noteCall_dmem (c : PortCall) : (noteCall c s).dmem = s.dmem := rfl
@[simp] theorem noteCall_readyDefault (c : PortCall) : (noteCall c s).readyDefault = s.readyDefault := rfl
@[simp] theorem noteCall_readyExcept (c : PortCall) : (noteCall c s).readyExcept = s.readyExcept := rfl
@[simp] theorem noteCall_tick (c : PortCall) : (noteCall c s).tick = s.tick := rfl
@[simp] theorem noteCall_calls (c : PortCall) : (noteCall c s).calls = s.calls ++ [c] := rfl

/-! `storeData` -/
@[simp] theorem storeData_cfg (a v : Word) : (storeData a v s).cfg = s.cfg := rfl
@[simp] theorem storeData_pc (a v : Word) : (storeData a v s).pc = s.pc := rfl
@[simp] theorem storeData_regs (a v : Word) : (storeData a v s).regs = s.regs := rfl
@[simp] theorem storeData_slotF (a v : Word) : (storeData a v s).slotF = s.slotF := rfl
@[simp] theorem storeData_slotD (a v : Word) : (storeData a v s).slotD = s.slotD := rfl
@[simp] theorem storeData_slotE (a v : Word) : (storeData a v s).slotE = s.slotE := rfl
@[simp] theorem storeData_slotM (a v : Word) : (storeData a v s).slotM = s.slotM := rfl
@[simp] theorem storeData_slotW (a v : Word) : (storeData a v s).slotW = s.slotW := rfl
@[simp] theorem storeData_exRes (a v : Word) : (storeData a v s).exRes = s.exRes := rfl
@[simp] theorem storeData_exTaken (a v : Word) : (storeData a v s).exTaken = s.exTaken := rfl
@[simp] theorem storeData_exTarget (a v : Word) : (storeData a v s).exTarget = s.exTarget := rfl
@[simp] theorem storeData_memRes (a v : Word) : (storeData a v s).memRes = s.memRes := rfl
@[simp] theorem storeData_memTaken (a v : Word) : (storeData a v s).memTaken = s.memTaken := rfl
@[simp] theorem storeData_memTarget (a v : Word) : (storeData a v s).memTarget = s.memTarget := rfl
@[simp] theorem storeData_memLoad (a v : Word) : (storeData a v s).memLoad = s.memLoad := rfl
@[simp] theorem storeData_wbVal (a v : Word) : (storeData a v s).wbVal = s.wbVal := rfl
@[simp] theorem storeData_canAdvance (a v : Word) : (storeData a v s).canAdvance = s.canAdvance := rfl
@[simp] theorem storeData_hazardPending (a v : Word) : (storeData a v s).hazardPending = s.hazardPending := rfl
@[simp] theorem storeData_stage (a v : Word) : (storeData a v s).stage = s.stage := rfl
@[simp] theorem storeData_imem (a v : Word) : (storeData a v s).imem = s.imem := rfl
@[simp] theorem storeData_irec (a v : Word) : (storeData a v s).irec = s.irec := rfl
@[simp] theorem storeData_dmem (a v : Word) : (storeData a v s).dmem = writeWord s.dmem a v := rfl
@[simp] theorem storeData_readyDefault (a v : Word) : (storeData a v s).readyDefault = s.readyDefault := rfl
@[simp] theorem storeData_readyExcept (a v : Word) : (storeData a v s).readyExcept = s.readyExcept := rfl
@[simp] theorem storeData_tick (a v : Word) : (storeData a v s).tick = s.tick := rfl
@[simp] theorem storeData_calls (a v : Word) : (storeData a v s).calls = s.calls := rfl

/-! `clearWriteBack` -/
@[simp] theorem clearWriteBack_cfg : (clearWriteBack s).cfg = s.cfg := rfl
@[simp] theorem clearWriteBack_pc : (clearWriteBack s).pc = s.pc := rfl
@[simp] theorem clearWriteBack_regs : (clearWriteBack s).regs = s.regs := rfl
@[simp] theorem clearWriteBack_slotF : (clearWriteBack s).slotF = s.slotF := rfl
@[simp] theorem clearWriteBack_slotD : (clearWriteBack s).slotD = s.slotD := rfl
@[simp] theorem clearWriteBack_slotE : (clearWriteBack s).slotE = s.slotE := rfl
@[simp] theorem clearWriteBack_slotM : (clearWriteBack s).slotM = s.slotM := rfl
@[simp] theorem clearWriteBack_slotW : (clearWriteBack s).slotW = Slot.empty := rfl
@[simp] theorem clearWriteBack_exRes : (clearWriteBack s).exRes = s.exRes := rfl
@[simp] theorem clearWriteBack_exTaken : (clearWriteBack s).exTaken = s.exTaken := rfl
@[simp] theorem clearWriteBack_exTarget : (clearWriteBack s).exTarget = s.exTarget := rfl
@[simp] theorem clearWriteBack_memRes : (clearWriteBack s).memRes = s.memRes := rfl
@[simp] theorem clearWriteBack_memTaken : (clearWriteBack s).memTaken = s.memTaken := rfl
@[simp] theorem clearWriteBack_memTarget : (clearWriteBack s).memTarget = s.memTarget := rfl
@[simp] theorem clearWriteBack_memLoad : (clearWriteBack s).memLoad = s.memLoad := rfl
@[simp] theorem clearWriteBack_wbVal : (clearWriteBack s).wbVal = s.wbVal := rfl
@[simp] theorem clearWriteBack_canAdvance : (clearWriteBack s).canAdvance = s.canAdvance := rfl
@[simp] theorem clearWriteBack_hazardPending : (clearWriteBack s).hazardPending = s.hazardPending := rfl
@[simp] theorem clearWriteBack_stage : (clearWriteBack s).stage = s.stage := rfl
@[simp] theorem clearWriteBack_imem : (clearWriteBack s).imem = s.imem := rfl
@[simp] theorem clearWriteBack_irec : (clearWriteBack s).irec = s.irec := rfl
@[simp] theorem clearWriteBack_dmem : (clearWriteBack s).dmem = s.dmem := rfl
@[simp] theorem clearWriteBack_readyDefault : (clearWriteBack s).readyDefault = s.readyDefault := rfl
@[simp] theorem clearWriteBack_readyExcept : (clearWriteBack s).readyExcept = s.readyExcept := rfl
@[simp] theorem clearWriteBack_tick : (clearWriteBack s).tick = s.tick := rfl
@[simp] theorem clearWriteBack_calls : (clearWriteBack s).calls = s.calls := rfl

/-! `setCanAdvance` -/
@[simp] theorem setCanAdvance_cfg (b : Bool) : (setCanAdvance b s).cfg = s.cfg := rfl
@[simp] theorem setCanAdvance_pc (b : Bool) : (setCanAdvance b s).pc = s.pc := rfl
@[simp] theorem setCanAdvance_regs (b : Bool) : (setCanAdvance b s).regs = s.regs := rfl
@[simp] theorem setCanAdvance_slotF (b : Bool) : (setCanAdvance b s).slotF = s.slotF := rfl
@[simp] theorem setCanAdvance_slotD (b : Bool) : (setCanAdvance b s).slotD = s.slotD := rfl
@[simp] theorem setCanAdvance_slotE (b : Bool) : (setCanAdvance b s).slotE = s.slotE := rfl
@[simp] theorem setCanAdvance_slotM (b : Bool) : (setCanAdvance b s).slotM = s.slotM := rfl
@[simp] theorem setCanAdvance_slotW (b : Bool) : (setCanAdvance b s).slotW = s.slotW := rfl
@[simp] theorem setCanAdvance_exRes (b : Bool) : (setCanAdvance b s).exRes = s.exRes := rfl
@[simp] theorem setCanAdvance_exTaken (b : Bool) : (setCanAdvance b s).exTaken = s.exTaken := rfl
@[simp] theorem setCanAdvance_exTarget (b : Bool) : (setCanAdvance b s).exTarget = s.exTarget := rfl
@[simp] theorem setCanAdvance_memRes (b : Bool) : (setCanAdvance b s).memRes = s.memRes := rfl
@[simp] theorem setCanAdvance_memTaken (b : Bool) : (setCanAdvance b s).memTaken = s.memTaken := rfl
@[simp] theorem setCanAdvance_memTarget (b : Bool) : (setCanAdvance b s).memTarget = s.memTarget := rfl
@[simp] theorem setCanAdvance_memLoad (b : Bool) : (setCanAdvance b s).memLoad = s.memLoad := rfl
@[simp] theorem setCanAdvance_wbVal (b : Bool) : (setCanAdvance b s).wbVal = s.wbVal := rfl
@[simp] theorem setCanAdvance_canAdvance (b : Bool) : (setCanAdvance b s).canAdvance = b := rfl
@[simp] theorem setCanAdvance_hazardPending (b : Bool) : (setCanAdvance b s).hazardPending = s.hazardPending := rfl
@[simp] theorem setCanAdvance_stage (b : Bool) : (setCanAdvance b s).stage = s.stage := rfl
@[simp] theorem setCanAdvance_imem (b : Bool) : (setCanAdvance b s).imem = s.imem := rfl
@[simp] theorem setCanAdvance_irec (b : Bool) : (setCanAdvance b s).irec = s.irec := rfl
@[simp] theorem setCanAdvance_dmem (b : Bool) : (setCanAdvance b s).dmem = s.dmem := rfl
@[simp] theorem setCanAdvance_readyDefault (b : Bool) : (setCanAdvance b s).readyDefault = s.readyDefault := rfl
@[simp] theorem setCanAdvance_readyExcept (b : Bool) : (setCanAdvance b s).readyExcept = s.readyExcept := rfl
@[simp] theorem setCanAdvance_tick (b : Bool) : (setCanAdvance b s).tick = s.tick := rfl
@[simp] theorem setCanAdvance_calls (b : Bool) : (setCanAdvance b s).calls = s.calls := rfl

/-! `setHazardPending` -/
@[simp] theorem setHazardPending_cfg (b : Bool) : (setHazardPending b s).cfg = s.cfg := rfl
@[simp] theorem setHazardPending_pc (b : Bool) : (setHazardPending b s).pc = s.pc := rfl
@[simp] theorem setHazardPending_regs (b : Bool) : (setHazardPending b s).regs = s.regs := rfl
@[simp] theorem setHazardPending_slotF (b : Bool) : (setHazardPending b s).slotF = s.slotF := rfl
@[simp] theorem setHazardPending_slotD (b : Bool) : (setHazardPending b s).slotD = s.slotD := rfl
@[simp] theorem setHazardPending_slotE (b : Bool) : (setHazardPending b s).slotE = s.slotE := rfl
@[simp] theorem setHazardPending_slotM (b : Bool) : (setHazardPending b s).slotM = s.slotM := rfl
@[simp] theorem setHazardPending_slotW (b : Bool) : (setHazardPending b s).slotW = s.slotW := rfl
@[simp] theorem setHazardPending_exRes (b : Bool) : (setHazardPending b s).exRes = s.exRes := rfl
@[simp] theorem setHazardPending_exTaken (b : Bool) : (setHazardPending b s).exTaken = s.exTaken := rfl
@[simp] theorem setHazardPending_exTarget (b : Bool) : (setHazardPending b s).exTarget = s.exTarget := rfl
@[simp] theorem setHazardPending_memRes (b : Bool) : (setHazardPending b s).memRes = s.memRes := rfl
@[simp] theorem setHazardPending_memTaken (b : Bool) : (setHazardPending b s).memTaken = s.memTaken := rfl
@[simp] theorem setHazardPending_memTarget (b : Bool) : (setHazardPending b s).memTarget = s.memTarget := rfl
@[simp] theorem setHazardPending_memLoad (b : Bool) : (setHazardPending b s).memLoad = s.memLoad := rfl
@[simp] theorem setHazardPending_wbVal (b : Bool) : (setHazardPending b s).wbVal = s.wbVal := rfl
@[simp] theorem setHazardPending_canAdvance (b : Bool) : (setHazardPending b s).canAdvance = s.canAdvance := rfl
@[simp] theorem setHazardPending_hazardPending (b : Bool) : (setHazardPending b s).hazardPending = b := rfl
@[simp] theorem setHazardPending_stage (b : Bool) : (setHazardPending b s).stage = s.stage := rfl
@[simp] theorem setHazardPending_imem (b : Bool) : (setHazardPending b s).imem = s.imem := rfl
@[simp] theorem setHazardPending_irec (b : Bool) : (setHazardPending b s).irec = s.irec := rfl
@[simp] theorem setHazardPending_dmem (b : Bool) : (setHazardPending b s).dmem = s.dmem := rfl
@[simp] theorem setHazardPending_readyDefault (b : Bool) : (setHazardPending b s).readyDefault = s.readyDefault := rfl
@[simp] theorem setHazardPending_readyExcept (b : Bool) : (setHazardPending b s).readyExcept = s.readyExcept := rfl
@[simp] theorem setHazardPending_tick (b : Bool) : (setHazardPending b s).tick = s.tick := rfl
@[simp] theorem setHazardPending_calls (b : Bool) : (setHazardPending b s).calls = s.calls := rfl

/-! `setPc` -/
@[simp] theorem setPc_cfg (v : Word) : (setPc v s).cfg = s.cfg := rfl
@[simp] theorem setPc_pc (v : Word) : (setPc v s).pc = v := rfl
@[simp] theorem setPc_regs (v : Word) : (setPc v s).regs = s.regs := rfl
@[simp] theorem setPc_slotF (v : Word) : (setPc v s).slotF = s.slotF := rfl
@[simp] theorem setPc_slotD (v : Word) : (setPc v s).slotD = s.slotD := rfl
@[simp] theorem setPc_slotE (v : Word) : (setPc v s).slotE = s.slotE := rfl
@[simp] theorem setPc_slotM (v : Word) : (setPc v s).slotM = s.slotM := rfl
@[simp] theorem setPc_slotW (v : Word) : (setPc v s).slotW = s.slotW := rfl
@[simp] theorem setPc_exRes (v : Word) : (setPc v s).exRes = s.exRes := rfl
@[simp] theorem setPc_exTaken (v : Word) : (setPc v s).exTaken = s.exTaken := rfl
@[simp] theorem setPc_exTarget (v : Word) : (setPc v s).exTarget = s.exTarget := rfl
@[simp] theorem setPc_memRes (v : Word) : (setPc v s).memRes = s.memRes := rfl
@[simp] theorem setPc_memTaken (v : Word) : (setPc v s).memTaken = s.memTaken := rfl
@[simp] theorem setPc_memTarget (v : Word) : (setPc v s).memTarget = s.memTarget := rfl
@[simp] theorem setPc_memLoad (v : Word) : (setPc v s).memLoad = s.memLoad := rfl
@[simp] theorem setPc_wbVal (v : Word) : (setPc v s).wbVal = s.wbVal := rfl
@[simp] theorem setPc_canAdvance (v : Word) : (setPc v s).canAdvance = s.canAdvance := rfl
@[simp] theorem setPc_hazardPending (v : Word) : (setPc v s).hazardPending = s.hazardPending := rfl
@[simp] theorem setPc_stage (v : Word) : (setPc v s).stage = s.stage := rfl
@[simp] theorem setPc_imem (v : Word) : (setPc v s).imem = s.imem := rfl
@[simp] theorem setPc_irec (v : Word) : (setPc v s).irec = s.irec := rfl
@[simp] theorem setPc_dmem (v : Word) : (setPc v s).dmem = s.dmem := rfl
@[simp] theorem setPc_readyDefault (v : Word) : (setPc v s).readyDefault = s.readyDefault := rfl
@[simp] theorem setPc_readyExcept (v : Word) : (setPc v s).readyExcept = s.readyExcept := rfl
@[simp] theorem setPc_tick (v : Word) : (setPc v s).tick = s.tick := rfl
@[simp] theorem setPc_calls (v : Word) : (setPc v s).calls = s.calls := rfl

/-! `setSlotF` -/
@[simp] theorem setSlotF_cfg (v : Slot) : (setSlotF v s).cfg = s.cfg := rfl
@[simp] theorem setSlotF_pc (v : Slot) : (setSlotF v s).pc = s.pc := rfl
@[simp] theorem setSlotF_regs (v : Slot) : (setSlotF v s).regs = s.regs := rfl
@[simp] theorem setSlotF_slotF (v : Slot) : (setSlotF v s).slotF = v := rfl
@[simp] theorem setSlotF_slotD (v : Slot) : (setSlotF v s).slotD = s.slotD := rfl
@[simp] theorem setSlotF_slotE (v : Slot) : (setSlotF v s).slotE = s.slotE := rfl
@[simp] theorem setSlotF_slotM (v : Slot) : (setSlotF v s).slotM = s.slotM := rfl
@[simp] theorem setSlotF_slotW (v : Slot) : (setSlotF v s).slotW = s.slotW := rfl
@[simp] theorem setSlotF_exRes (v : Slot) : (setSlotF v s).exRes = s.exRes := rfl
@[simp] theorem setSlotF_exTaken (v : Slot) : (setSlotF v s).exTaken = s.exTaken := rfl
@[simp] theorem setSlotF_exTarget (v : Slot) : (setSlotF v s).exTarget = s.exTarget := rfl
@[simp] theorem setSlotF_memRes (v : Slot) : (setSlotF v s).memRes = s.memRes := rfl
@[simp] theorem setSlotF_memTaken (v : Slot) : (setSlotF v s).memTaken = s.memTaken := rfl
@[simp] theorem setSlotF_memTarget (v : Slot) : (setSlotF v s).memTarget = s.memTarget := rfl
@[simp] theorem setSlotF_memLoad (v : Slot) : (setSlotF v s).memLoad = s.memLoad := rfl
@[simp] theorem setSlotF_wbVal (v : Slot) : (setSlotF v s).wbVal = s.wbVal := rfl
@[simp] theorem setSlotF_canAdvance (v : Slot) : (setSlotF v s).canAdvance = s.canAdvance := rfl
@[simp] theorem setSlotF_hazardPending (v : Slot) : (setSlotF v s).hazardPending = s.hazardPending := rfl
@[simp] theorem setSlotF_stage (v : Slot) : (setSlotF v s).stage = s.stage := rfl
@[simp] theorem setSlotF_imem (v : Slot) : (setSlotF v s).imem = s.imem := rfl
@[simp] theorem setSlotF_irec (v : Slot) : (setSlotF v s).irec = s.irec := rfl
@[simp] theorem setSlotF_dmem (v : Slot) : (setSlotF v s).dmem = s.dmem := rfl
@[simp] theorem setSlotF_readyDefault (v : Slot) : (setSlotF v s).readyDefault = s.readyDefault := rfl
@[simp] theorem setSlotF_readyExcept (v : Slot) : (setSlotF v s).readyExcept = s.readyExcept := rfl
@[simp] theorem setSlotF_tick (v : Slot) : (setSlotF v s).tick = s.tick := rfl
@[simp] theorem setSlotF_calls (v : Slot) : (setSlotF v s).calls = s.calls := rfl

/-! `shiftDownstream` -/
@[simp] theorem shiftDownstream_cfg : (shiftDownstream s).cfg = s.cfg := rfl
@[simp] theorem shiftDownstream_pc : (shiftDownstream s).pc = s.pc := rfl
@[simp] theorem shiftDownstream_regs : (shiftDownstream s).regs = s.regs := rfl
@[simp] theorem shiftDownstream_slotF : (shiftDownstream s).slotF = s.slotF := rfl
@[simp] theorem shiftDownstream_slotD : (shiftDownstream s).slotD = s.slotD := rfl
@[simp] theorem shiftDownstream_slotE : (shiftDownstream s).slotE = s.slotE := rfl
@[simp] theorem shiftDownstream_slotM : (shiftDownstream s).slotM = s.slotE := rfl
@[simp] theorem shiftDownstream_slotW : (shiftDownstream s).slotW = s.slotM := rfl
@[simp] theorem shiftDownstream_exRes : (shiftDownstream s).exRes = s.exRes := rfl
@[simp] theorem shiftDownstream_exTaken : (shiftDownstream s).exTaken = s.exTaken := rfl
@[simp] theorem shiftDownstream_exTarget : (shiftDownstream s).exTarget = s.exTarget := rfl
@[simp] theorem shiftDownstream_memRes : (shiftDownstream s).memRes = s.exRes := rfl
@[simp] theorem shiftDownstream_memTaken : (shiftDownstream s).memTaken = s.exTaken := rfl
@[simp] theorem shiftDownstream_memTarget : (shiftDownstream s).memTarget = s.exTarget := rfl
@[simp] theorem shiftDownstream_memLoad : (shiftDownstream s).memLoad = s.memLoad := rfl
@[simp] theorem shiftDownstream_wbVal : (shiftDownstream s).wbVal = writeBackValue s := rfl
@[simp] theorem shiftDownstream_canAdvance : (shiftDownstream s).canAdvance = s.canAdvance := rfl
@[simp] theorem shiftDownstream_hazardPending : (shiftDownstream s).hazardPending = s.hazardPending := rfl
@[simp] theorem shiftDownstream_stage : (shiftDownstream s).stage = s.stage := rfl
@[simp] theorem shiftDownstream_imem : (shiftDownstream s).imem = s.imem := rfl
@[simp] theorem shiftDownstream_irec : (shiftDownstream s).irec = s.irec := rfl
@[simp] theorem shiftDownstream_dmem : (shiftDownstream s).dmem = s.dmem := rfl
@[simp] theorem shiftDownstream_readyDefault : (shiftDownstream s).readyDefault = s.readyDefault := rfl
@[simp] theorem shiftDownstream_readyExcept : (shiftDownstream s).readyExcept = s.readyExcept := rfl
@[simp] theorem shiftDownstream_tick : (shiftDownstream s).tick = s.tick := rfl
@[simp] theorem shiftDownstream_calls : (shiftDownstream s).calls = s.calls := rfl

/-! `insertBubble` -/
@[simp] theorem insertBubble_cfg : (insertBubble s).cfg = s.cfg := rfl
@[simp] theorem insertBubble_pc : (insertBubble s).pc = s.pc := rfl
@[simp] theorem insertBubble_regs : (insertBubble s).regs = s.regs := rfl
@[simp] theorem insertBubble_slotF : (insertBubble s).slotF = s.slotF := rfl
@[simp] theorem insertBubble_slotD : (insertBubble s).slotD = s.slotD := rfl
@[simp] theorem insertBubble_slotE : (insertBubble s).slotE = Slot.empty := rfl
@[simp] theorem insertBubble_slotM : (insertBubble s).slotM = s.slotM := rfl
@[simp] theorem insertBubble_slotW : (insertBubble s).slotW = s.slotW := rfl
@[simp] theorem insertBubble_exRes : (insertBubble s).exRes = 0 := rfl
@[simp] theorem insertBubble_exTaken : (insertBubble s).exTaken = false := rfl
@[simp] theorem insertBubble_exTarget : (insertBubble s).exTarget = 0 := rfl
@[simp] theorem insertBubble_memRes : (insertBubble s).memRes = s.memRes := rfl
@[simp] theorem insertBubble_memTaken : (insertBubble s).memTaken = s.memTaken := rfl
@[simp] theorem insertBubble_memTarget : (insertBubble s).memTarget = s.memTarget := rfl
@[simp] theorem insertBubble_memLoad : (insertBubble s).memLoad = s.memLoad := rfl
@[simp] theorem insertBubble_wbVal : (insertBubble s).wbVal = s.wbVal := rfl
@[simp] theorem insertBubble_canAdvance : (insertBubble s).canAdvance = s.canAdvance := rfl
@[simp] theorem insertBubble_hazardPending : (insertBubble s).hazardPending = s.hazardPending := rfl
@[simp] theorem insertBubble_stage : (insertBubble s).stage = s.stage := rfl
@[simp] theorem insertBubble_imem : (insertBubble s).imem = s.imem := rfl
@[simp] theorem insertBubble_irec : (insertBubble s).irec = s.irec := rfl
@[simp] theorem insertBubble_dmem : (insertBubble s).dmem = s.dmem := rfl
@[simp] theorem insertBubble_readyDefault : (insertBubble s).readyDefault = s.readyDefault := rfl
@[simp] theorem insertBubble_readyExcept : (insertBubble s).readyExcept = s.readyExcept := rfl
@[simp] theorem insertBubble_tick : (insertBubble s).tick = s.tick := rfl
@[simp] theorem insertBubble_calls : (insertBubble s).calls = s.calls := rfl

/-! `flush` -/
@[simp] theorem flush_cfg : (flush s).cfg = s.cfg := rfl
@[simp] theorem flush_pc : (flush s).pc = s.pc := rfl
@[simp] theorem flush_regs : (flush s).regs = s.regs := rfl
@[simp] theorem flush_slotF : (flush s).slotF = Slot.empty := rfl
@[simp] theorem flush_slotD : (flush s).slotD = Slot.empty := rfl
@[simp] theorem flush_slotE : (flush s).slotE = Slot.empty := rfl
@[simp] theorem flush_slotM : (flush s).slotM = s.slotM := rfl
@[simp] theorem flush_slotW : (flush s).slotW = s.slotW := rfl
@[simp] theorem flush_exRes : (flush s).exRes = 0 := rfl
@[simp] theorem flush_exTaken : (flush s).exTaken = false := rfl
@[simp] theorem flush_exTarget : (flush s).exTarget = 0 := rfl
@[simp] theorem flush_memRes : (flush s).memRes = s.memRes := rfl
@[simp] theorem flush_memTaken : (flush s).memTaken = s.memTaken := rfl
@[simp] theorem flush_memTarget : (flush s).memTarget = s.memTarget := rfl
@[simp] theorem flush_memLoad : (flush s).memLoad = s.memLoad := rfl
@[simp] theorem flush_wbVal : (flush s).wbVal = s.wbVal := rfl
@[simp] theorem flush_canAdvance : (flush s).canAdvance = s.canAdvance := rfl
@[simp] theorem flush_hazardPending : (flush s).hazardPending = s.hazardPending := rfl
@[simp] theorem flush_stage : (flush s).stage = s.stage := rfl
@[simp] theorem flush_imem : (flush s).imem = s.imem := rfl
@[simp] theorem flush_irec : (flush s).irec = s.irec := rfl
@[simp] theorem flush_dmem : (flush s).dmem = s.dmem := rfl
@[simp] theorem flush_readyDefault : (flush s).readyDefault = s.readyDefault := rfl
@[simp] theorem flush_readyExcept : (flush s).readyExcept = s.readyExcept := rfl
@[simp] theorem flush_tick : (flush s).tick = s.tick := rfl
@[simp] theorem flush_calls : (flush s).calls = s.calls := rfl

/-! `beginTick` -/
@[simp] theorem beginTick_cfg : (beginTick s).cfg = s.cfg := rfl
@[simp] theorem beginTick_pc : (beginTick s).pc = s.pc := rfl
@[simp] theorem beginTick_regs : (beginTick s).regs = s.regs := rfl
@[simp] theorem beginTick_slotF : (beginTick s).slotF = s.slotF := rfl
@[simp] theorem beginTick_slotD : (beginTick s).slotD = s.slotD := rfl
@[simp] theorem beginTick_slotE : (beginTick s).slotE = s.slotE := rfl
@[simp] theorem beginTick_slotM : (beginTick s).slotM = s.slotM := rfl
@[simp] theorem beginTick_slotW : (beginTick s).slotW = s.slotW := rfl
@[simp] theorem beginTick_exRes : (beginTick s).exRes = s.exRes := rfl
@[simp] theorem beginTick_exTaken : (beginTick s).exTaken = s.exTaken := rfl
@[simp] theorem beginTick_exTarget : (beginTick s).exTarget = s.exTarget := rfl
@[simp] theorem beginTick_memRes : (beginTick s).memRes = s.memRes := rfl
@[simp] theorem beginTick_memTaken : (beginTick s).memTaken = s.memTaken := rfl
@[simp] theorem beginTick_memTarget : (beginTick s).memTarget = s.memTarget := rfl
@[simp] theorem beginTick_memLoad : (beginTick s).memLoad = s.memLoad := rfl
@[simp] theorem beginTick_wbVal : (beginTick s).wbVal = s.wbVal := rfl
@[simp] theorem beginTick_canAdvance : (beginTick s).canAdvance = s.canAdvance := rfl
@[simp] theorem beginTick_hazardPending : (beginTick s).hazardPending = s.hazardPending := rfl
@[simp] theorem beginTick_stage : (beginTick s).stage = s.stage := rfl
@[simp] theorem beginTick_imem : (beginTick s).imem = s.imem := rfl
@[simp] theorem beginTick_irec : (beginTick s).irec = s.irec := rfl
@[simp] theorem beginTick_dmem : (beginTick s).dmem = s.dmem := rfl
@[simp] theorem beginTick_readyDefault : (beginTick s).readyDefault = s.readyDefault := rfl
@[simp] theorem beginTick_readyExcept : (beginTick s).readyExcept = s.readyExcept := rfl
@[simp] theorem beginTick_tick : (beginTick s).tick = s.tick + 1 := rfl
@[simp] theorem beginTick_calls : (beginTick s).calls = [] := rfl

/-! What the slot constants and the reset state show. -/
@[simp] theorem empty_cmd : Slot.empty.cmd = .emptyNop := rfl
@[simp] theorem empty_ipc : Slot.empty.ipc = 0 := rfl
@[simp] theorem empty_src1Val : Slot.empty.src1Val = 0 := rfl
@[simp] theorem empty_src2Val : Slot.empty.src2Val = 0 := rfl
@[simp] theorem empty_dstVal : Slot.empty.dstVal = 0 := rfl
@[simp] theorem fetched_cmd (c : Instr) (a : Word) : (Slot.fetched c a).cmd = c := rfl
@[simp] theorem fetched_ipc (c : Instr) (a : Word) : (Slot.fetched c a).ipc = a := rfl
@[simp] theorem fetched_src1Val (c : Instr) (a : Word) : (Slot.fetched c a).src1Val = 0 := rfl
@[simp] theorem fetched_src2Val (c : Instr) (a : Word) : (Slot.fetched c a).src2Val = 0 := rfl
@[simp] theorem fetched_dstVal (c : Instr) (a : Word) : (Slot.fetched c a).dstVal = 0 := rfl
@[simp] theorem emptyNop_opcode : Instr.emptyNop.opcode = .nop := rfl
@[simp] theorem emptyNop_isSrc2Immediate : Instr.emptyNop.isSrc2Immediate = false := rfl
@[simp] theorem emptyNop_dstIndex : Instr.emptyNop.dstIndex = 0 := rfl
@[simp] theorem emptyNop_src1Index : Instr.emptyNop.src1Index = 0 := rfl
@[simp] theorem emptyNop_src2Index : Instr.emptyNop.src2Index = 0 := rfl
@[simp] theorem emptyNop_immediateValue : Instr.emptyNop.immediateValue = 0 := rfl

/-! Sequencing. -/
@[simp] theorem andThen_next (f : State → Out) : andThen (.next s) f = f s := rfl
@[simp] theorem andThen_fault (r : Fault) (f : State → Out) : andThen (.fault r) f = .fault r := rfl
@[simp] theorem andThen_refused (r : Refusal) (f : State → Out) : andThen (.refused r) f = .refused r := rfl

/-- A chain answers a next state only through a next state of its first part. -/
theorem andThen_eq_next {o : Out} {f : State → Out} {t : State} :
    andThen o f = .next t ↔ ∃ u, o = .next u ∧ f u = .next t := by
  cases o <;> simp [andThen]

/-! The occupant of a stage. -/
@[simp] theorem slotOf_fetch : slotOf s .fetch = s.slotF := rfl
@[simp] theorem slotOf_decode : slotOf s .decode = s.slotD := rfl
@[simp] theorem slotOf_execute : slotOf s .execute = s.slotE := rfl
@[simp] theorem slotOf_memory : slotOf s .memory = s.slotM := rfl
@[simp] theorem slotOf_writeBack : slotOf s .writeBack = s.slotW := rfl

end Sys2Proof.Machine
end

