-- ==== Sys2Proof/Laws/Exec.lean ====
section
/-! SUPPORT. What `exec` does in each stage, said once for all sixteen instructions through the fields of the Command:
later proofs cite these and unfold no meaning. -/

namespace Sys2Proof.Machine

/-- Fetch compute has no effect (R182). -/
theorem exec_at_fetch (i : Instr) {s : State} (h : s.stage = .fetch) : exec i s = .next s := by
  cases i <;>
    simp [exec, execNopR, execNopI, execAddR, execAddI, execSubR, execSubI, execLoadR, execLoadI, execStoreR,
      execStoreI, execBrR, execBrI, execBreqR, execBreqI, execBrneqR, execBrneqI, nopStages, addStages, subStages,
      loadStages, storeStages, branchStages, h]

/-- Decode compute resolves the operands of every opcode alike (R183). -/
theorem exec_at_decode (i : Instr) {s : State} (h : s.stage = .decode) :
    exec i s = .next (resolveOperands i.isSrc2Immediate i.dstIndex i.src1Index i.src2Index i.immediateValue s) := by
  cases i <;>
    simp [exec, execNopR, execNopI, execAddR, execAddI, execSubR, execSubI, execLoadR, execLoadI, execStoreR,
      execStoreI, execBrR, execBrI, execBreqR, execBreqI, execBrneqR, execBrneqI, nopStages, addStages, subStages,
      loadStages, storeStages, branchStages, h, Instr.isSrc2Immediate, Instr.dstIndex, Instr.src1Index,
      Instr.src2Index, Instr.immediateValue, Instr.operands]

/-- The occupant of Execute after the forwarding step (R223). -/
def patched (i : Instr) (s : State) : State :=
  patchOperands (readsDst i.opcode) i.isSrc2Immediate i.dstIndex i.src1Index i.src2Index s

/-- Execute compute: the forwarding step, then the latches of R185. -/
theorem exec_at_execute (i : Instr) {s : State} (h : s.stage = .execute) :
    exec i s = .next (latchEx
      (exResultOf i.opcode (patched i s).slotE.src1Val (patched i s).slotE.src2Val (patched i s).slotE.dstVal)
      (exTakenOf i.opcode (patched i s).slotE.src1Val (patched i s).slotE.src2Val)
      (exTargetOf i.opcode (patched i s).slotE.dstVal s.slotE.ipc s.cfg.branchBaseOffset) (patched i s)) := by
  cases i <;>
    simp [exec, execNopR, execNopI, execAddR, execAddI, execSubR, execSubI, execLoadR, execLoadI, execStoreR,
      execStoreI, execBrR, execBrI, execBreqR, execBreqI, execBrneqR, execBrneqI, nopStages, addStages, subStages,
      loadStages, storeStages, branchStages, h, Instr.isSrc2Immediate, Instr.dstIndex, Instr.src1Index,
      Instr.src2Index, Instr.operands, Instr.opcode, patched, exResultOf, exTakenOf, exTargetOf,
      isBranch, readsDst, addResult, subResult, loadAddress, storeAddress, branchTarget, takenIfEqual,
      takenIfDifferent, alwaysTaken, patchOperands]

/-- Memory compute: the port call of LOAD and of STORE, nothing for the rest (R186 to R188). -/
theorem exec_at_memory (i : Instr) {s : State} (h : s.stage = .memory) :
    exec i s = if i.opcode = .load then loadAccess s else if i.opcode = .store then storeAccess s else .next s := by
  cases i <;>
    simp [exec, execNopR, execNopI, execAddR, execAddI, execSubR, execSubI, execLoadR, execLoadI, execStoreR,
      execStoreI, execBrR, execBrI, execBreqR, execBreqI, execBrneqR, execBrneqI, nopStages, addStages, subStages,
      loadStages, storeStages, branchStages, h, Instr.opcode]

/-- Write-Back compute: `x[dstIndex] <- WBval` for ADD, SUB and LOAD, nothing for the rest (R190). -/
theorem exec_at_writeBack (i : Instr) {s : State} (h : s.stage = .writeBack) :
    exec i s = .next (if writesRegister i.opcode then retire i.dstIndex s else s) := by
  cases i <;>
    simp [exec, execNopR, execNopI, execAddR, execAddI, execSubR, execSubI, execLoadR, execLoadI, execStoreR,
      execStoreI, execBrR, execBrI, execBreqR, execBreqI, execBrneqR, execBrneqI, nopStages, addStages, subStages,
      loadStages, storeStages, branchStages, h, Instr.opcode, writesRegister, Instr.dstIndex, Instr.operands]

end Sys2Proof.Machine
end

