-- ==== Sys2Proof/Laws/Tick.lean ====
section
/-! SUPPORT. What one tick can do, said once: `step` as Write-Back's write, Memory's port call, the compute steps of
Execute and Decode in a tick that is no retry, and the end of the tick; and one lemma per shared operation for its
next states. -/

namespace Sys2Proof.Machine

/-! ### The port calls -/

/-- A LOAD's port call goes on in two ways only: the value taken, or the pipeline held (R186). -/
theorem loadAccess_eq_next {s t : State} :
    loadAccess s = .next t ↔ aligned s.memRes = true ∧
      ((ready s s.tick = true ∧ t = noteCall (.dread s.memRes (some (readWord s.dmem s.memRes)))
          (takeLoad (readWord s.dmem s.memRes) s)) ∨
        (ready s s.tick = false ∧ t = noteCall (.dread s.memRes none) (holdPipeline s))) := by
  unfold loadAccess dread
  cases aligned s.memRes <;> cases ready s s.tick <;> simp [eq_comm]

/-- A STORE's port call goes on in one way only: the word written (R187). -/
theorem storeAccess_eq_next {s t : State} :
    storeAccess s = .next t ↔ aligned s.memRes = true ∧
      t = noteCall (.dwrite s.memRes s.slotM.src1Val) (storeData s.memRes s.slotM.src1Val s) := by
  unfold storeAccess
  cases aligned s.memRes <;> simp [eq_comm]

/-- A fetch goes on with the Command of the port in `slot[F]` (R182). -/
theorem fetch_eq_next {s t : State} :
    fetch s = .next t ↔ ∃ c, ifetch s s.pc = .next c ∧
      t = noteCall (.ifetch s.pc) (setSlotF (Slot.fetched c s.pc) s) := by
  unfold fetch
  cases ifetch s s.pc <;> simp [eq_comm]

/-- The fetch port reads the parameters and the instruction memory only (R60, R76). -/
theorem ifetch_congr {s t : State} (a : Word) (hc : t.cfg = s.cfg) (hi : t.imem = s.imem) (hr : t.irec = s.irec) :
    ifetch t a = ifetch s a := by
  simp only [ifetch, commandAt, hc, hi, hr]

/-! ### The parts of a tick -/

/-- The state after Write-Back compute (R190). -/
def retiredState (s : State) : State :=
  if writesRegister s.slotW.cmd.opcode then
    writeReg s.slotW.cmd.dstIndex s.wbVal (atStage .writeBack (beginTick s))
  else atStage .writeBack (beginTick s)

/-- Memory compute of a tick (R186 to R188), `canAdvance` true unless it sets it false. -/
def memoryOut (s : State) : Out :=
  if s.slotM.cmd.opcode = .load then loadAccess (atStage .memory (setCanAdvance true s))
  else if s.slotM.cmd.opcode = .store then storeAccess (atStage .memory (setCanAdvance true s))
  else .next (atStage .memory (setCanAdvance true s))

/-- Execute compute of the occupant of Execute (R185). -/
def executed (s : State) : State :=
  let p := patched s.slotE.cmd (atStage .execute s)
  latchEx (exResultOf s.slotE.cmd.opcode p.slotE.src1Val p.slotE.src2Val p.slotE.dstVal)
    (exTakenOf s.slotE.cmd.opcode p.slotE.src1Val p.slotE.src2Val)
    (exTargetOf s.slotE.cmd.opcode p.slotE.dstVal s.slotE.ipc s.cfg.branchBaseOffset) p

/-- Decode compute of the occupant of Decode (R183). -/
def decoded (s : State) : State :=
  resolveOperands s.slotD.cmd.isSrc2Immediate s.slotD.cmd.dstIndex s.slotD.cmd.src1Index s.slotD.cmd.src2Index
    s.slotD.cmd.immediateValue (atStage .decode s)

/-- Execute, Decode and Fetch compute of a tick that is no retry (R252). -/
def computed (s : State) : State := atStage .fetch (decoded (executed s))

/-- The state Memory compute begins with: after Write-Back compute, and in a retry tick with `slot[W]` cleared (R253). -/
def beforeMemory (s : State) : State :=
  if s.canAdvance then retiredState s else clearWriteBack (retiredState s)

/-- `tick()` of R266 in its parts. -/
theorem step_eq (s : State) :
    step s = andThen (memoryOut (beforeMemory s)) fun u => finishTick (if s.canAdvance then computed u else u) := by
  have hw : computeStage .writeBack (beginTick s) = .next (retiredState s) := by
    simp only [computeStage, exec_at_writeBack _ (atStage_stage (beginTick s) _), retiredState]
    simp only [slotOf_writeBack, beginTick_slotW, retire, atStage_wbVal, beginTick_wbVal]
    rfl
  have hm : ∀ u, computeStage .memory (setCanAdvance true u) = memoryOut u := by
    intro u
    simp only [computeStage, exec_at_memory _ (atStage_stage (setCanAdvance true u) _), memoryOut]
    rfl
  have hall : ∀ u, computeAll u = andThen (memoryOut u) fun v => .next (computed v) := by
    intro u
    simp only [computeAll, hm]
    congr 1
    funext v
    simp only [computeStage, slotOf_execute, exec_at_execute _ (atStage_stage v _), andThen_next, slotOf_decode,
      exec_at_decode _ (atStage_stage _ _), slotOf_fetch, exec_at_fetch _ (atStage_stage _ _)]
    rfl
  rw [step, tickOnce, hw, andThen_next]
  cases hc : s.canAdvance
  · simp only [Bool.false_eq_true, if_false, computeRetry, hm, beforeMemory, hc]
  · simp only [if_true, hall, beforeMemory, hc]
    generalize memoryOut (retiredState s) = o
    cases o <;> simp only [andThen_next, andThen_fault, andThen_refused]

/-- Memory compute goes on in four ways only. -/
theorem memoryOut_eq_next {s u : State} (h : memoryOut s = .next u) :
    (s.slotM.cmd.opcode = .load ∧ aligned s.memRes = true ∧ ready s s.tick = true ∧
        u = noteCall (.dread s.memRes (some (readWord s.dmem s.memRes)))
          (takeLoad (readWord s.dmem s.memRes) (atStage .memory (setCanAdvance true s)))) ∨
      (s.slotM.cmd.opcode = .load ∧ aligned s.memRes = true ∧ ready s s.tick = false ∧
        u = noteCall (.dread s.memRes none) (holdPipeline (atStage .memory (setCanAdvance true s)))) ∨
      (s.slotM.cmd.opcode = .store ∧ aligned s.memRes = true ∧
        u = noteCall (.dwrite s.memRes s.slotM.src1Val)
          (storeData s.memRes s.slotM.src1Val (atStage .memory (setCanAdvance true s)))) ∨
      (s.slotM.cmd.opcode ≠ .load ∧ s.slotM.cmd.opcode ≠ .store ∧ u = atStage .memory (setCanAdvance true s)) := by
  unfold memoryOut at h
  split at h
  · rename_i hl
    obtain ⟨ha, ⟨hr, ht⟩ | ⟨hr, ht⟩⟩ := loadAccess_eq_next.1 h
    · exact .inl ⟨hl, ha, hr, ht⟩
    · exact .inr (.inl ⟨hl, ha, hr, ht⟩)
  · split at h
    · rename_i hl hs
      obtain ⟨ha, ht⟩ := storeAccess_eq_next.1 h
      exact .inr (.inr (.inl ⟨hs, ha, ht⟩))
    · rename_i hl hs
      cases h
      exact .inr (.inr (.inr ⟨hl, hs, rfl⟩))

/-- The end of a tick goes on in three ways only: stalled, a bubble advance, a normal advance (R254, R255). -/
theorem finishTick_eq_next {s t : State} (h : finishTick s = .next t) :
    (s.canAdvance = false ∧ t = atStage .fetch s) ∨
      (s.canAdvance = true ∧ s.hazardPending = true ∧ s.memTaken = false ∧ t = atStage .fetch (bubbleAdvance s)) ∨
      (s.canAdvance = true ∧ (s.hazardPending && !s.memTaken) = false ∧ ∃ c, ifetch s (nextPc s) = .next c ∧
        t = atStage .fetch (recomputeHazard (noteCall (.ifetch (nextPc s))
          (setSlotF (Slot.fetched c (nextPc s)) (advanceSlots s))))) := by
  unfold finishTick at h
  cases hc : s.canAdvance
  · rw [hc] at h
    cases h
    exact .inl ⟨rfl, rfl⟩
  · rw [hc, if_pos rfl] at h
    obtain ⟨u, hu, ht⟩ := andThen_eq_next.1 h
    cases ht
    unfold advance at hu
    cases hb : (s.hazardPending && !s.memTaken)
    · rw [hb, if_neg (by simp)] at hu
      obtain ⟨v, hv, hu⟩ := andThen_eq_next.1 hu
      cases hu
      obtain ⟨c, hc', hv⟩ := fetch_eq_next.1 hv
      have hpc : (advanceSlots s).pc = nextPc s := rfl
      rw [hpc] at hc' hv
      refine .inr (.inr ⟨rfl, rfl, c, ?_, by rw [hv]⟩)
      rw [← hc']
      refine (ifetch_congr _ ?_ ?_ ?_).symm <;> (unfold advanceSlots shift; cases s.memTaken <;> rfl)
    · rw [hb, if_pos rfl] at hu
      cases hu
      simp only [Bool.and_eq_true, Bool.not_eq_true'] at hb
      exact .inr (.inl ⟨rfl, hb.1, hb.2, rfl⟩)

/-- A tick that answers a next state is Memory compute, then the end of the tick. -/
theorem step_eq_next {s t : State} (h : step s = .next t) :
    ∃ u, memoryOut (beforeMemory s) = .next u ∧ finishTick (if s.canAdvance then computed u else u) = .next t :=
  andThen_eq_next.1 (step_eq s ▸ h)

/-! ### What the parts of a tick leave as it is -/

section Fields
variable (s : State)

@[simp] theorem retiredState_regs : (retiredState s).regs =
    if writesRegister s.slotW.cmd.opcode then
      s.regs.set s.slotW.cmd.dstIndex.toNat s.wbVal s.slotW.cmd.dstIndex.isLt
    else s.regs := by
  unfold retiredState; split <;> rfl

@[simp] theorem retiredState_cfg : (retiredState s).cfg = s.cfg := by unfold retiredState; split <;> rfl
@[simp] theorem retiredState_pc : (retiredState s).pc = s.pc := by unfold retiredState; split <;> rfl
@[simp] theorem retiredState_slotF : (retiredState s).slotF = s.slotF := by unfold retiredState; split <;> rfl
@[simp] theorem retiredState_slotD : (retiredState s).slotD = s.slotD := by unfold retiredState; split <;> rfl
@[simp] theorem retiredState_slotE : (retiredState s).slotE = s.slotE := by unfold retiredState; split <;> rfl
@[simp] theorem retiredState_slotM : (retiredState s).slotM = s.slotM := by unfold retiredState; split <;> rfl
@[simp] theorem retiredState_slotW : (retiredState s).slotW = s.slotW := by unfold retiredState; split <;> rfl
@[simp] theorem retiredState_exRes : (retiredState s).exRes = s.exRes := by unfold retiredState; split <;> rfl
@[simp] theorem retiredState_exTaken : (retiredState s).exTaken = s.exTaken := by unfold retiredState; split <;> rfl
@[simp] theorem retiredState_exTarget : (retiredState s).exTarget = s.exTarget := by unfold retiredState; split <;> rfl
@[simp] theorem retiredState_memRes : (retiredState s).memRes = s.memRes := by unfold retiredState; split <;> rfl
@[simp] theorem retiredState_memTaken : (retiredState s).memTaken = s.memTaken := by unfold retiredState; split <;> rfl
@[simp] theorem retiredState_memTarget : (retiredState s).memTarget = s.memTarget := by unfold retiredState; split <;> rfl
@[simp] theorem retiredState_memLoad : (retiredState s).memLoad = s.memLoad := by unfold retiredState; split <;> rfl
@[simp] theorem retiredState_wbVal : (retiredState s).wbVal = s.wbVal := by unfold retiredState; split <;> rfl
@[simp] theorem retiredState_canAdvance : (retiredState s).canAdvance = s.canAdvance := by unfold retiredState; split <;> rfl
@[simp] theorem retiredState_hazardPending : (retiredState s).hazardPending = s.hazardPending := by unfold retiredState; split <;> rfl
@[simp] theorem retiredState_imem : (retiredState s).imem = s.imem := by unfold retiredState; split <;> rfl
@[simp] theorem retiredState_irec : (retiredState s).irec = s.irec := by unfold retiredState; split <;> rfl
@[simp] theorem retiredState_dmem : (retiredState s).dmem = s.dmem := by unfold retiredState; split <;> rfl
@[simp] theorem retiredState_readyDefault : (retiredState s).readyDefault = s.readyDefault := by unfold retiredState; split <;> rfl
@[simp] theorem retiredState_readyExcept : (retiredState s).readyExcept = s.readyExcept := by unfold retiredState; split <;> rfl
@[simp] theorem retiredState_tick : (retiredState s).tick = s.tick + 1 := by unfold retiredState; split <;> rfl
@[simp] theorem retiredState_calls : (retiredState s).calls = [] := by unfold retiredState; split <;> rfl

@[simp] theorem beforeMemory_cfg : (beforeMemory s).cfg = (retiredState s).cfg := by unfold beforeMemory; split <;> rfl
@[simp] theorem beforeMemory_pc : (beforeMemory s).pc = (retiredState s).pc := by unfold beforeMemory; split <;> rfl
@[simp] theorem beforeMemory_regs : (beforeMemory s).regs = (retiredState s).regs := by unfold beforeMemory; split <;> rfl
@[simp] theorem beforeMemory_slotF : (beforeMemory s).slotF = (retiredState s).slotF := by unfold beforeMemory; split <;> rfl
@[simp] theorem beforeMemory_slotD : (beforeMemory s).slotD = (retiredState s).slotD := by unfold beforeMemory; split <;> rfl
@[simp] theorem beforeMemory_slotE : (beforeMemory s).slotE = (retiredState s).slotE := by unfold beforeMemory; split <;> rfl
@[simp] theorem beforeMemory_slotM : (beforeMemory s).slotM = (retiredState s).slotM := by unfold beforeMemory; split <;> rfl
@[simp] theorem beforeMemory_exRes : (beforeMemory s).exRes = (retiredState s).exRes := by unfold beforeMemory; split <;> rfl
@[simp] theorem beforeMemory_exTaken : (beforeMemory s).exTaken = (retiredState s).exTaken := by unfold beforeMemory; split <;> rfl
@[simp] theorem beforeMemory_exTarget : (beforeMemory s).exTarget = (retiredState s).exTarget := by unfold beforeMemory; split <;> rfl
@[simp] theorem beforeMemory_memRes : (beforeMemory s).memRes = (retiredState s).memRes := by unfold beforeMemory; split <;> rfl
@[simp] theorem beforeMemory_memTaken : (beforeMemory s).memTaken = (retiredState s).memTaken := by unfold beforeMemory; split <;> rfl
@[simp] theorem beforeMemory_memTarget : (beforeMemory s).memTarget = (retiredState s).memTarget := by unfold beforeMemory; split <;> rfl
@[simp] theorem beforeMemory_memLoad : (beforeMemory s).memLoad = (retiredState s).memLoad := by unfold beforeMemory; split <;> rfl
@[simp] theorem beforeMemory_wbVal : (beforeMemory s).wbVal = (retiredState s).wbVal := by unfold beforeMemory; split <;> rfl
@[simp] theorem beforeMemory_canAdvance : (beforeMemory s).canAdvance = (retiredState s).canAdvance := by unfold beforeMemory; split <;> rfl
@[simp] theorem beforeMemory_hazardPending : (beforeMemory s).hazardPending = (retiredState s).hazardPending := by unfold beforeMemory; split <;> rfl
@[simp] theorem beforeMemory_imem : (beforeMemory s).imem = (retiredState s).imem := by unfold beforeMemory; split <;> rfl
@[simp] theorem beforeMemory_irec : (beforeMemory s).irec = (retiredState s).irec := by unfold beforeMemory; split <;> rfl
@[simp] theorem beforeMemory_dmem : (beforeMemory s).dmem = (retiredState s).dmem := by unfold beforeMemory; split <;> rfl
@[simp] theorem beforeMemory_readyDefault : (beforeMemory s).readyDefault = (retiredState s).readyDefault := by unfold beforeMemory; split <;> rfl
@[simp] theorem beforeMemory_readyExcept : (beforeMemory s).readyExcept = (retiredState s).readyExcept := by unfold beforeMemory; split <;> rfl
@[simp] theorem beforeMemory_tick : (beforeMemory s).tick = (retiredState s).tick := by unfold beforeMemory; split <;> rfl
@[simp] theorem beforeMemory_calls : (beforeMemory s).calls = (retiredState s).calls := by unfold beforeMemory; split <;> rfl
@[simp] theorem beforeMemory_slotW : (beforeMemory s).slotW = if s.canAdvance then s.slotW else Slot.empty := by
  unfold beforeMemory; cases s.canAdvance <;> simp

@[simp] theorem computed_cfg : (computed s).cfg = s.cfg := by
  simp only [computed, decoded, executed, patched, patchOperands, resolveOperands, atStage_cfg, setDecodeVals_cfg,
    latchEx_cfg, setExecuteVals_cfg]
@[simp] theorem computed_pc : (computed s).pc = s.pc := by
  simp only [computed, decoded, executed, patched, patchOperands, resolveOperands, atStage_pc, setDecodeVals_pc,
    latchEx_pc, setExecuteVals_pc]
@[simp] theorem computed_regs : (computed s).regs = s.regs := by
  simp only [computed, decoded, executed, patched, patchOperands, resolveOperands, atStage_regs, setDecodeVals_regs,
    latchEx_regs, setExecuteVals_regs]
@[simp] theorem computed_slotF : (computed s).slotF = s.slotF := by
  simp only [computed, decoded, executed, patched, patchOperands, resolveOperands, atStage_slotF, setDecodeVals_slotF,
    latchEx_slotF, setExecuteVals_slotF]
@[simp] theorem computed_slotM : (computed s).slotM = s.slotM := by
  simp only [computed, decoded, executed, patched, patchOperands, resolveOperands, atStage_slotM, setDecodeVals_slotM,
    latchEx_slotM, setExecuteVals_slotM]
@[simp] theorem computed_slotW : (computed s).slotW = s.slotW := by
  simp only [computed, decoded, executed, patched, patchOperands, resolveOperands, atStage_slotW, setDecodeVals_slotW,
    latchEx_slotW, setExecuteVals_slotW]
@[simp] theorem computed_memRes : (computed s).memRes = s.memRes := by
  simp only [computed, decoded, executed, patched, patchOperands, resolveOperands, atStage_memRes, setDecodeVals_memRes,
    latchEx_memRes, setExecuteVals_memRes]
@[simp] theorem computed_memTaken : (computed s).memTaken = s.memTaken := by
  simp only [computed, decoded, executed, patched, patchOperands, resolveOperands, atStage_memTaken, setDecodeVals_memTaken,
    latchEx_memTaken, setExecuteVals_memTaken]
@[simp] theorem computed_memTarget : (computed s).memTarget = s.memTarget := by
  simp only [computed, decoded, executed, patched, patchOperands, resolveOperands, atStage_memTarget, setDecodeVals_memTarget,
    latchEx_memTarget, setExecuteVals_memTarget]
@[simp] theorem computed_memLoad : (computed s).memLoad = s.memLoad := by
  simp only [computed, decoded, executed, patched, patchOperands, resolveOperands, atStage_memLoad, setDecodeVals_memLoad,
    latchEx_memLoad, setExecuteVals_memLoad]
@[simp] theorem computed_wbVal : (computed s).wbVal = s.wbVal := by
  simp only [computed, decoded, executed, patched, patchOperands, resolveOperands, atStage_wbVal, setDecodeVals_wbVal,
    latchEx_wbVal, setExecuteVals_wbVal]
@[simp] theorem computed_canAdvance : (computed s).canAdvance = s.canAdvance := by
  simp only [computed, decoded, executed, patched, patchOperands, resolveOperands, atStage_canAdvance, setDecodeVals_canAdvance,
    latchEx_canAdvance, setExecuteVals_canAdvance]
@[simp] theorem computed_hazardPending : (computed s).hazardPending = s.hazardPending := by
  simp only [computed, decoded, executed, patched, patchOperands, resolveOperands, atStage_hazardPending, setDecodeVals_hazardPending,
    latchEx_hazardPending, setExecuteVals_hazardPending]
@[simp] theorem computed_imem : (computed s).imem = s.imem := by
  simp only [computed, decoded, executed, patched, patchOperands, resolveOperands, atStage_imem, setDecodeVals_imem,
    latchEx_imem, setExecuteVals_imem]
@[simp] theorem computed_irec : (computed s).irec = s.irec := by
  simp only [computed, decoded, executed, patched, patchOperands, resolveOperands, atStage_irec, setDecodeVals_irec,
    latchEx_irec, setExecuteVals_irec]
@[simp] theorem computed_dmem : (computed s).dmem = s.dmem := by
  simp only [computed, decoded, executed, patched, patchOperands, resolveOperands, atStage_dmem, setDecodeVals_dmem,
    latchEx_dmem, setExecuteVals_dmem]
@[simp] theorem computed_readyDefault : (computed s).readyDefault = s.readyDefault := by
  simp only [computed, decoded, executed, patched, patchOperands, resolveOperands, atStage_readyDefault, setDecodeVals_readyDefault,
    latchEx_readyDefault, setExecuteVals_readyDefault]
@[simp] theorem computed_readyExcept : (computed s).readyExcept = s.readyExcept := by
  simp only [computed, decoded, executed, patched, patchOperands, resolveOperands, atStage_readyExcept, setDecodeVals_readyExcept,
    latchEx_readyExcept, setExecuteVals_readyExcept]
@[simp] theorem computed_tick : (computed s).tick = s.tick := by
  simp only [computed, decoded, executed, patched, patchOperands, resolveOperands, atStage_tick, setDecodeVals_tick,
    latchEx_tick, setExecuteVals_tick]
@[simp] theorem computed_calls : (computed s).calls = s.calls := by
  simp only [computed, decoded, executed, patched, patchOperands, resolveOperands, atStage_calls, setDecodeVals_calls,
    latchEx_calls, setExecuteVals_calls]
@[simp] theorem computed_slotE_cmd : (computed s).slotE.cmd = s.slotE.cmd := by
  simp only [computed, decoded, executed, patched, patchOperands, resolveOperands, atStage_slotE, setDecodeVals_slotE,
    latchEx_slotE, setExecuteVals_slotE]
@[simp] theorem computed_slotE_ipc : (computed s).slotE.ipc = s.slotE.ipc := by
  simp only [computed, decoded, executed, patched, patchOperands, resolveOperands, atStage_slotE, setDecodeVals_slotE,
    latchEx_slotE, setExecuteVals_slotE]
@[simp] theorem computed_slotD_cmd : (computed s).slotD.cmd = s.slotD.cmd := by
  simp only [computed, decoded, executed, patched, patchOperands, resolveOperands, atStage_slotD, setDecodeVals_slotD,
    latchEx_slotD, setExecuteVals_slotD]
@[simp] theorem computed_slotD_ipc : (computed s).slotD.ipc = s.slotD.ipc := by
  simp only [computed, decoded, executed, patched, patchOperands, resolveOperands, atStage_slotD, setDecodeVals_slotD,
    latchEx_slotD, setExecuteVals_slotD]

end Fields

end Sys2Proof.Machine
end

