-- ==== Sys2Proof/Laws/Advance.lean ====
section
/-! SUPPORT. The advance phase field by field, what Memory compute leaves as it is, and the three ways a tick ends, in
terms of the state the tick began with. -/

namespace Sys2Proof.Machine

/-! ### Runs -/

theorem coreRun_succ (M : Host.Core) (n : Nat) (s t : M.State) :
    M.run (n + 1) s = .next t ↔ ∃ u, M.step s = .next u ∧ M.run n u = .next t := by
  rw [Host.Core.run.eq_2]
  rcases M.step s with u | r | r <;> simp

/-- `RunsTo` is the host's run of `n` steps that answers a next state. -/
theorem runsTo_iff_run (n : Nat) : ∀ s t : State, RunsTo n s t ↔ Host.Core.run Sys2Proof.core n s = .next t := by
  induction n with
  | zero => exact fun s t => ⟨fun h => congrArg _ (Eq.symm h), fun h => (Host.Outcome.next.inj h).symm⟩
  | succ n ih =>
    exact fun s t => (exists_congr fun u => and_congr_right fun _ => ih u t).trans
      (coreRun_succ Sys2Proof.core n s t).symm

/-! ### The normal advance, field by field -/

section Advance
variable (s : State)

@[simp] theorem advanceSlots_cfg : (advanceSlots s).cfg = s.cfg := by unfold advanceSlots; cases s.memTaken <;> rfl
@[simp] theorem advanceSlots_regs : (advanceSlots s).regs = s.regs := by unfold advanceSlots; cases s.memTaken <;> rfl
@[simp] theorem advanceSlots_memLoad : (advanceSlots s).memLoad = s.memLoad := by unfold advanceSlots; cases s.memTaken <;> rfl
@[simp] theorem advanceSlots_canAdvance : (advanceSlots s).canAdvance = s.canAdvance := by unfold advanceSlots; cases s.memTaken <;> rfl
@[simp] theorem advanceSlots_dmem : (advanceSlots s).dmem = s.dmem := by unfold advanceSlots; cases s.memTaken <;> rfl
@[simp] theorem advanceSlots_imem : (advanceSlots s).imem = s.imem := by unfold advanceSlots; cases s.memTaken <;> rfl
@[simp] theorem advanceSlots_irec : (advanceSlots s).irec = s.irec := by unfold advanceSlots; cases s.memTaken <;> rfl
@[simp] theorem advanceSlots_readyDefault : (advanceSlots s).readyDefault = s.readyDefault := by unfold advanceSlots; cases s.memTaken <;> rfl
@[simp] theorem advanceSlots_readyExcept : (advanceSlots s).readyExcept = s.readyExcept := by unfold advanceSlots; cases s.memTaken <;> rfl
@[simp] theorem advanceSlots_tick : (advanceSlots s).tick = s.tick := by unfold advanceSlots; cases s.memTaken <;> rfl
@[simp] theorem advanceSlots_calls : (advanceSlots s).calls = s.calls := by unfold advanceSlots; cases s.memTaken <;> rfl
@[simp] theorem advanceSlots_pc : (advanceSlots s).pc = nextPc s := rfl
@[simp] theorem advanceSlots_slotW : (advanceSlots s).slotW = s.slotM := by unfold advanceSlots; cases s.memTaken <;> rfl
@[simp] theorem advanceSlots_wbVal : (advanceSlots s).wbVal = writeBackValue s := by unfold advanceSlots; cases s.memTaken <;> rfl
@[simp] theorem advanceSlots_slotM : (advanceSlots s).slotM = if s.memTaken then Slot.empty else s.slotE := by
  unfold advanceSlots; cases s.memTaken <;> rfl
@[simp] theorem advanceSlots_slotE : (advanceSlots s).slotE = if s.memTaken then Slot.empty else s.slotD := by
  unfold advanceSlots; cases s.memTaken <;> rfl
@[simp] theorem advanceSlots_slotD : (advanceSlots s).slotD = if s.memTaken then Slot.empty else s.slotF := by
  unfold advanceSlots; cases s.memTaken <;> rfl
@[simp] theorem advanceSlots_memRes : (advanceSlots s).memRes = if s.memTaken then 0 else s.exRes := by
  unfold advanceSlots; cases s.memTaken <;> rfl
@[simp] theorem advanceSlots_memTaken : (advanceSlots s).memTaken = if s.memTaken then false else s.exTaken := by
  unfold advanceSlots; cases s.memTaken <;> rfl
@[simp] theorem advanceSlots_memTarget : (advanceSlots s).memTarget = if s.memTaken then 0 else s.exTarget := by
  unfold advanceSlots; cases s.memTaken <;> rfl

end Advance

/-! ### The registers after Write-Back -/

/-- One register read after one register written. -/
theorem regs_set_get (v : Vector Word 32) (r q : RegIdx) (w : Word) :
    (v.set r.toNat w r.isLt)[q.toNat]'q.isLt = if r = q then w else v[q.toNat]'q.isLt := by
  simp only [Vector.getElem_set]
  by_cases h : r = q
  · simp [h]
  · rw [if_neg (fun e => h (BitVec.eq_of_toNat_eq e)), if_neg h]

/-- Writing back the value a register holds changes nothing. -/
theorem regs_set_same (v : Vector Word 32) (r : RegIdx) (w : Word) (h : v[r.toNat]'r.isLt = w) :
    v.set r.toNat w r.isLt = v := by
  subst h
  apply Vector.ext
  intro i hi
  by_cases e : r.toNat = i
  · subst e; simp
  · exact Vector.getElem_set_ne _ _ e

/-! ### A tick from its beginning to its end -/

/-- The state a tick's advance phase begins with, `u` the state Memory compute left. -/
def beforeFinish (s u : State) : State := if s.canAdvance then computed u else u

section BeforeFinish
variable (s u : State)

@[simp] theorem beforeFinish_cfg : (beforeFinish s u).cfg = u.cfg := by unfold beforeFinish; split <;> simp
@[simp] theorem beforeFinish_pc : (beforeFinish s u).pc = u.pc := by unfold beforeFinish; split <;> simp
@[simp] theorem beforeFinish_regs : (beforeFinish s u).regs = u.regs := by unfold beforeFinish; split <;> simp
@[simp] theorem beforeFinish_slotF : (beforeFinish s u).slotF = u.slotF := by unfold beforeFinish; split <;> simp
@[simp] theorem beforeFinish_slotM : (beforeFinish s u).slotM = u.slotM := by unfold beforeFinish; split <;> simp
@[simp] theorem beforeFinish_slotW : (beforeFinish s u).slotW = u.slotW := by unfold beforeFinish; split <;> simp
@[simp] theorem beforeFinish_memRes : (beforeFinish s u).memRes = u.memRes := by unfold beforeFinish; split <;> simp
@[simp] theorem beforeFinish_memTaken : (beforeFinish s u).memTaken = u.memTaken := by unfold beforeFinish; split <;> simp
@[simp] theorem beforeFinish_memTarget : (beforeFinish s u).memTarget = u.memTarget := by unfold beforeFinish; split <;> simp
@[simp] theorem beforeFinish_memLoad : (beforeFinish s u).memLoad = u.memLoad := by unfold beforeFinish; split <;> simp
@[simp] theorem beforeFinish_wbVal : (beforeFinish s u).wbVal = u.wbVal := by unfold beforeFinish; split <;> simp
@[simp] theorem beforeFinish_canAdvance : (beforeFinish s u).canAdvance = u.canAdvance := by unfold beforeFinish; split <;> simp
@[simp] theorem beforeFinish_hazardPending : (beforeFinish s u).hazardPending = u.hazardPending := by unfold beforeFinish; split <;> simp
@[simp] theorem beforeFinish_imem : (beforeFinish s u).imem = u.imem := by unfold beforeFinish; split <;> simp
@[simp] theorem beforeFinish_irec : (beforeFinish s u).irec = u.irec := by unfold beforeFinish; split <;> simp
@[simp] theorem beforeFinish_dmem : (beforeFinish s u).dmem = u.dmem := by unfold beforeFinish; split <;> simp
@[simp] theorem beforeFinish_readyDefault : (beforeFinish s u).readyDefault = u.readyDefault := by unfold beforeFinish; split <;> simp
@[simp] theorem beforeFinish_readyExcept : (beforeFinish s u).readyExcept = u.readyExcept := by unfold beforeFinish; split <;> simp
@[simp] theorem beforeFinish_tick : (beforeFinish s u).tick = u.tick := by unfold beforeFinish; split <;> simp
@[simp] theorem beforeFinish_calls : (beforeFinish s u).calls = u.calls := by unfold beforeFinish; split <;> simp
@[simp] theorem beforeFinish_slotE_cmd : (beforeFinish s u).slotE.cmd = u.slotE.cmd := by
  unfold beforeFinish; split <;> simp
@[simp] theorem beforeFinish_slotE_ipc : (beforeFinish s u).slotE.ipc = u.slotE.ipc := by
  unfold beforeFinish; split <;> simp
@[simp] theorem beforeFinish_slotD_cmd : (beforeFinish s u).slotD.cmd = u.slotD.cmd := by
  unfold beforeFinish; split <;> simp
@[simp] theorem beforeFinish_slotD_ipc : (beforeFinish s u).slotD.ipc = u.slotD.ipc := by
  unfold beforeFinish; split <;> simp

end BeforeFinish

/-- The readiness of a tick reads the oracle only (R69). -/
theorem ready_congr {s t : State} (n : Nat) (hd : t.readyDefault = s.readyDefault) (he : t.readyExcept = s.readyExcept) :
    ready t n = ready s n := by simp [ready, hd, he]

/-- What Memory compute of a tick that goes on leaves (R186 to R190), in terms of the state the tick began with. -/
structure MemoryDone (s u : State) : Prop where
  cfg : u.cfg = s.cfg
  pc : u.pc = s.pc
  regs : u.regs = (retiredState s).regs
  slotF : u.slotF = s.slotF
  slotD : u.slotD = s.slotD
  slotE : u.slotE = s.slotE
  slotM : u.slotM = s.slotM
  slotW : u.slotW = if s.canAdvance then s.slotW else Slot.empty
  exRes : u.exRes = s.exRes
  exTaken : u.exTaken = s.exTaken
  exTarget : u.exTarget = s.exTarget
  memRes : u.memRes = s.memRes
  memTaken : u.memTaken = s.memTaken
  memTarget : u.memTarget = s.memTarget
  wbVal : u.wbVal = s.wbVal
  hazardPending : u.hazardPending = s.hazardPending
  imem : u.imem = s.imem
  irec : u.irec = s.irec
  readyDefault : u.readyDefault = s.readyDefault
  readyExcept : u.readyExcept = s.readyExcept
  tick : u.tick = s.tick + 1
  addressAligned : s.slotM.cmd.opcode = .load ∨ s.slotM.cmd.opcode = .store → aligned s.memRes = true
  canAdvance : u.canAdvance = !(s.slotM.cmd.opcode == .load && !ready s (s.tick + 1))
  memLoad : u.memLoad =
    if s.slotM.cmd.opcode = .load ∧ ready s (s.tick + 1) = true then readWord s.dmem s.memRes else s.memLoad
  dmem : u.dmem = if s.slotM.cmd.opcode = .store then writeWord s.dmem s.memRes s.slotM.src1Val else s.dmem
  calls : u.calls =
    if s.slotM.cmd.opcode = .load then
      [.dread s.memRes (if ready s (s.tick + 1) then some (readWord s.dmem s.memRes) else none)]
    else if s.slotM.cmd.opcode = .store then [.dwrite s.memRes s.slotM.src1Val]
    else []

theorem ready_beforeMemory (s : State) :
    ready (beforeMemory s) (beforeMemory s).tick = ready s (s.tick + 1) := by
  rw [ready_congr (s := s) _ (by simp) (by simp)]; simp

theorem memoryDone_of_memoryOut {s u : State} (h : memoryOut (beforeMemory s) = .next u) : MemoryDone s u := by
  rcases memoryOut_eq_next h with ⟨a, b, c, rfl⟩ | ⟨a, b, c, rfl⟩ | ⟨a, b, rfl⟩ | ⟨a, b, rfl⟩ <;>
    (try rw [ready_beforeMemory] at c) <;> simp at a b <;> (constructor <;> simp [*])

/-- A tick that goes on ends in one of three ways: stalled, a bubble advance, a normal advance (R254, R255). -/
theorem step_ends {s t : State} (h : step s = .next t) : ∃ u, MemoryDone s u ∧
    ((u.canAdvance = false ∧ t = atStage .fetch (beforeFinish s u)) ∨
      (u.canAdvance = true ∧ s.hazardPending = true ∧ s.memTaken = false ∧
        t = atStage .fetch (bubbleAdvance (beforeFinish s u))) ∨
      (u.canAdvance = true ∧ ¬(s.hazardPending = true ∧ s.memTaken = false) ∧
        ∃ c, ifetch s (nextPc s) = .next c ∧
          t = atStage .fetch (recomputeHazard (noteCall (.ifetch (nextPc s))
            (setSlotF (Slot.fetched c (nextPc s)) (advanceSlots (beforeFinish s u))))))) := by
  obtain ⟨u, hu, hf⟩ := step_eq_next h
  have m := memoryDone_of_memoryOut hu
  have hn : nextPc (beforeFinish s u) = nextPc s := by simp [nextPc, m.memTaken, m.memTarget, m.pc]
  have he := finishTick_eq_next (s := beforeFinish s u) hf
  rw [beforeFinish_canAdvance, beforeFinish_hazardPending, beforeFinish_memTaken, hn, m.hazardPending, m.memTaken,
    ifetch_congr (s := s) (t := beforeFinish s u) _ (by simp [m.cfg]) (by simp [m.imem]) (by simp [m.irec])] at he
  refine ⟨u, m, ?_⟩
  rcases he with h | h | ⟨h1, h2, h3⟩
  · exact .inl h
  · exact .inr (.inl h)
  · exact .inr (.inr ⟨h1, by rintro ⟨hp, ht⟩; simp [hp, ht] at h2, h3⟩)

end Sys2Proof.Machine
end

