-- ==== Sys2Proof/Laws/Memory.lean ====
section
/-! SUPPORT. The sparse memories: what a read gives after a write, and that every memory operation keeps the canonical
form. -/

namespace Sys2Proof.Machine

variable {β : Type} [DecidableEq β]

theorem canonFrom_mono {d : β} {lo lo' : Nat} {l : List (Nat × β)} (h : canonFrom d lo l = true) (hle : lo' ≤ lo) :
    canonFrom d lo' l = true := by
  cases l with
  | nil => rfl
  | cons c rest =>
    obtain ⟨k, w⟩ := c
    simp only [canonFrom, Bool.and_eq_true, decide_eq_true_eq] at h ⊢
    exact ⟨⟨⟨by omega, h.1.1.2⟩, h.1.2⟩, h.2⟩

theorem lookup_below {d : β} {lo a : Nat} {l : List (Nat × β)} (h : canonFrom d lo l = true) (ha : a < lo) :
    lookup d l a = d := by
  induction l generalizing lo with
  | nil => rfl
  | cons c rest ih =>
    obtain ⟨k, w⟩ := c
    simp only [canonFrom, Bool.and_eq_true, decide_eq_true_eq] at h
    simp only [lookup]
    rw [if_neg (by omega), ih h.2 (by omega)]

/-- Putting a value keeps the canonical form. -/
theorem canonFrom_put {d : β} {lo a : Nat} {v : β} {l : List (Nat × β)} (h : canonFrom d lo l = true) (hlo : lo ≤ a)
    (ha : a < 2 ^ 32) : canonFrom d lo (put d l a v) = true := by
  induction l generalizing lo with
  | nil =>
    by_cases hv : v = d <;> simp [put, hv, canonFrom]
    omega
  | cons c rest ih =>
    obtain ⟨k, w⟩ := c
    simp only [canonFrom, Bool.and_eq_true, decide_eq_true_eq] at h
    obtain ⟨⟨⟨hk, hk2⟩, hw⟩, hr⟩ := h
    simp only [put]
    split
    · split
      · simp only [canonFrom, Bool.and_eq_true, decide_eq_true_eq]
        exact ⟨⟨⟨hk, hk2⟩, hw⟩, hr⟩
      · simp only [canonFrom, Bool.and_eq_true, decide_eq_true_eq]
        exact ⟨⟨⟨hlo, ha⟩, by simpa using ‹¬v = d›⟩, ⟨⟨by omega, hk2⟩, hw⟩, hr⟩
    · split
      · rename_i hak
        subst hak
        split
        · exact canonFrom_mono hr (by omega)
        · simp only [canonFrom, Bool.and_eq_true, decide_eq_true_eq]
          exact ⟨⟨⟨hk, hk2⟩, by simpa using ‹¬v = d›⟩, hr⟩
      · simp only [canonFrom, Bool.and_eq_true, decide_eq_true_eq]
        exact ⟨⟨⟨hk, hk2⟩, hw⟩, ih hr (by omega)⟩

theorem lookup_put_same {d : β} {lo a : Nat} {v : β} {l : List (Nat × β)} (h : canonFrom d lo l = true) :
    lookup d (put d l a v) a = v := by
  induction l generalizing lo with
  | nil => by_cases hv : v = d <;> simp [put, hv, lookup]
  | cons c rest ih =>
    obtain ⟨k, w⟩ := c
    simp only [canonFrom, Bool.and_eq_true, decide_eq_true_eq] at h
    obtain ⟨⟨⟨hk, hk2⟩, hw⟩, hr⟩ := h
    simp only [put]
    split
    · split
      · rename_i hlt hv
        simp only [lookup]
        rw [if_neg (by omega), lookup_below hr (by omega), hv]
      · simp [lookup]
    · split
      · rename_i hak
        subst hak
        split
        · rename_i hv
          rw [lookup_below hr (by omega), hv]
        · simp [lookup]
      · simp only [lookup]
        rw [if_neg (by omega), ih hr]

theorem lookup_put_other {d : β} {lo a b : Nat} {v : β} {l : List (Nat × β)} (h : canonFrom d lo l = true)
    (hab : b ≠ a) : lookup d (put d l a v) b = lookup d l b := by
  induction l generalizing lo with
  | nil =>
    by_cases hv : v = d
    · simp [put, hv, lookup]
    · simp [put, hv, lookup, Ne.symm hab]
  | cons c rest ih =>
    obtain ⟨k, w⟩ := c
    simp only [canonFrom, Bool.and_eq_true, decide_eq_true_eq] at h
    simp only [put]
    split
    · split
      · rfl
      · simp [lookup, Ne.symm hab]
    · split
      · rename_i hak
        subst hak
        split <;> simp [lookup, Ne.symm hab]
      · simp only [lookup]
        rw [ih h.2]

/-- Two canonical lists that read alike at every address are equal. -/
theorem canonFrom_ext {d : β} {lo lo' : Nat} {l l' : List (Nat × β)} (h : canonFrom d lo l = true)
    (h' : canonFrom d lo' l' = true) (he : ∀ a, lookup d l a = lookup d l' a) : l = l' := by
  induction l generalizing lo lo' l' with
  | nil =>
    cases l' with
    | nil => rfl
    | cons c rest =>
      obtain ⟨k, w⟩ := c
      simp only [canonFrom, Bool.and_eq_true, decide_eq_true_eq, Bool.not_eq_true', decide_eq_false_iff_not] at h'
      have := he k
      simp only [lookup, if_true] at this
      exact absurd this.symm h'.1.2
  | cons c rest ih =>
    obtain ⟨k, w⟩ := c
    have h0 := h
    simp only [canonFrom, Bool.and_eq_true, decide_eq_true_eq, Bool.not_eq_true', decide_eq_false_iff_not] at h
    cases l' with
    | nil =>
      have := he k
      simp only [lookup, if_true] at this
      exact absurd this h.1.2
    | cons c' rest' =>
      obtain ⟨k', w'⟩ := c'
      have h0' := h'
      simp only [canonFrom, Bool.and_eq_true, decide_eq_true_eq, Bool.not_eq_true', decide_eq_false_iff_not] at h'
      have hk : k = k' := by
        rcases Nat.lt_trichotomy k k' with hlt | heq | hgt
        · have := he k
          rw [lookup, if_pos rfl, lookup, if_neg (by omega), lookup_below h'.2 (by omega)] at this
          exact absurd this h.1.2
        · exact heq
        · have := he k'
          rw [lookup, if_neg (by omega), lookup, if_pos rfl, lookup_below h.2 (by omega)] at this
          exact absurd this.symm h'.1.2
      subst hk
      have hw : w = w' := by simpa [lookup] using he k
      subst hw
      have : rest = rest' := by
        refine ih h.2 h'.2 fun a => ?_
        by_cases ha : a = k
        · subst ha
          rw [lookup_below h.2 (by omega), lookup_below h'.2 (by omega)]
        · have := he a
          rwa [lookup, if_neg (Ne.symm ha), lookup, if_neg (Ne.symm ha)] at this
      rw [this]

/-! ### Bytes and words -/

theorem wf_writeByte {m : List Host.Cell} {a : Nat} {v : Byte} (h : Memory.wf m = true) (ha : a < 2 ^ 32) :
    Memory.wf (writeByte m a v) = true :=
  canonFrom_put h (Nat.zero_le _) ha

theorem readByte_writeByte_same {m : List Host.Cell} {a : Nat} {v : Byte} (h : Memory.wf m = true) :
    readByte (writeByte m a v) a = v :=
  lookup_put_same h

theorem readByte_writeByte_other {m : List Host.Cell} {a b : Nat} {v : Byte} (h : Memory.wf m = true) (hab : b ≠ a) :
    readByte (writeByte m a v) b = readByte m b :=
  lookup_put_other h hab

/-- The four bytes of an aligned word lie in the address space. -/
theorem aligned_room {a : Word} (h : aligned a = true) : a.toNat + 3 < 2 ^ 32 := by
  have := a.isLt
  simp only [aligned, beq_iff_eq] at h
  omega

/-- Writing a word keeps the canonical form. -/
theorem wf_writeWord {m : List Host.Cell} {a v : Word} (h : Memory.wf m = true) (ha : aligned a = true) :
    Memory.wf (writeWord m a v) = true := by
  have hr := aligned_room ha
  exact wf_writeByte (wf_writeByte (wf_writeByte (wf_writeByte h (by omega)) (by omega)) (by omega)) (by omega)

/-- What each byte reads as after a word is written: the word's byte inside its four, as before elsewhere. -/
theorem readByte_writeWord {m : List Host.Cell} {a v : Word} (h : Memory.wf m = true) (ha : aligned a = true) (b : Nat) :
    readByte (writeWord m a v) b =
      if a.toNat ≤ b ∧ b < a.toNat + 4 then byteOfWord v (b - a.toNat) else readByte m b := by
  have hr := aligned_room ha
  have h1 := wf_writeByte (v := byteOfWord v 0) h (a := a.toNat) (by omega)
  have h2 := wf_writeByte (v := byteOfWord v 1) h1 (a := a.toNat + 1) (by omega)
  have h3 := wf_writeByte (v := byteOfWord v 2) h2 (a := a.toNat + 2) (by omega)
  unfold writeWord
  by_cases e3 : b = a.toNat + 3
  · subst e3
    rw [readByte_writeByte_same h3, if_pos (by omega)]
    congr 1; omega
  rw [readByte_writeByte_other h3 e3]
  by_cases e2 : b = a.toNat + 2
  · subst e2
    rw [readByte_writeByte_same h2, if_pos (by omega)]
    congr 1; omega
  rw [readByte_writeByte_other h2 e2]
  by_cases e1 : b = a.toNat + 1
  · subst e1
    rw [readByte_writeByte_same h1, if_pos (by omega)]
    congr 1; omega
  rw [readByte_writeByte_other h1 e1]
  by_cases e0 : b = a.toNat
  · subst e0
    rw [readByte_writeByte_same h, if_pos (by omega)]
    congr 1; omega
  rw [readByte_writeByte_other h e0, if_neg (by omega)]

/-- The four bytes of a word put together again are the word (R64). -/
theorem wordOfBytes_byteOfWord (v : Word) :
    wordOfBytes (byteOfWord v 0) (byteOfWord v 1) (byteOfWord v 2) (byteOfWord v 3) = v := by
  apply BitVec.eq_of_getLsbD_eq
  intro i hi
  simp only [wordOfBytes, byteOfWord, BitVec.getLsbD_append, BitVec.getLsbD_extractLsb']
  by_cases h0 : i < 8
  · simp [h0, -BitVec.getLsbD_eq_getElem]
  by_cases h1 : i - 8 < 8
  · simp [h0, h1, show 8 + (i - 8) = i by omega, -BitVec.getLsbD_eq_getElem]
  by_cases h2 : i - 8 - 8 < 8
  · simp [h0, h1, h2, show 16 + (i - 8 - 8) = i by omega, -BitVec.getLsbD_eq_getElem]
  · simp [h0, h1, h2, show 24 + (i - 8 - 8 - 8) = i by omega, show i - 8 - 8 - 8 < 8 by omega,
      -BitVec.getLsbD_eq_getElem]

/-- The reset state's memories are in canonical form. -/
theorem reset_memories_wf :
    Memory.wf State.reset.dmem = true ∧ Memory.wf State.reset.imem = true ∧
      canonFrom none 0 State.reset.irec = true := by
  decide

/-- Placing a word keeps the canonical form of both parts of instruction memory. -/
theorem placeWord_wf {s : State} {a w : Word} (hi : Memory.wf s.imem = true) (hr : canonFrom none 0 s.irec = true)
    (ha : aligned a = true) :
    Memory.wf (placeWord a w s).imem = true ∧ canonFrom none 0 (placeWord a w s).irec = true :=
  ⟨wf_writeWord hi ha, canonFrom_put hr (Nat.zero_le _) a.isLt⟩

/-- Placing a record keeps the canonical form of both parts of instruction memory. -/
theorem placeRecord_wf {s : State} {a : Word} {r : Record} (hi : Memory.wf s.imem = true)
    (hr : canonFrom none 0 s.irec = true) (ha : aligned a = true) :
    Memory.wf (placeRecord a r s).imem = true ∧ canonFrom none 0 (placeRecord a r s).irec = true :=
  ⟨wf_writeWord hi ha, canonFrom_put hr (Nat.zero_le _) a.isLt⟩

/-- A STORE's port call keeps the canonical form of data memory. -/
theorem storeAccess_wf {s t : State} (h : storeAccess s = .next t) (hw : Memory.wf s.dmem = true) :
    Memory.wf t.dmem = true := by
  unfold storeAccess at h
  split at h
  · cases h
    exact wf_writeWord hw ‹_›
  · cases h

end Sys2Proof.Machine
end

