-- ==== Sys2Proof/Laws/Path.lean ====
section
/-! SUPPORT. The small lemmas of the definitions that tie the two levels together: the path of addresses through the
pipeline, the next instruction address, one instruction and a run at the instruction level. -/

namespace Sys2Proof.Machine

@[simp] theorem onPath_nil (s : State) (p : Word) : OnPath s p [] ↔ s.slotF.ipc = p := Iff.rfl

@[simp] theorem onPath_cons (s : State) (p : Word) (v : Slot) (rest : List Slot) :
    OnPath s p (v :: rest) ↔ (v.cmd = .emptyNop ∧ v.ipc = 0 ∧ OnPath s p rest) ∨
      (v.ipc = p ∧ ifetch s p = .next v.cmd ∧ OnPath s (p + 4) rest) := Iff.rfl

/-- Bubbles alone leave the oldest instruction where Fetch is. -/
theorem onPath_of_empty (s : State) (p : Word) (h : s.slotF.ipc = p) :
    OnPath s p [Slot.empty, Slot.empty] := .inl ⟨rfl, rfl, .inl ⟨rfl, rfl, h⟩⟩

theorem nextAddress_of_taken {s : State} (h : s.memTaken = true) (p : Word) :
    NextAddress s p ↔ s.memTarget = p := by simp [NextAddress, h]

theorem nextAddress_of_not_taken {s : State} (h : s.memTaken = false) (p : Word) :
    NextAddress s p ↔ OnPath s p [s.slotE, s.slotD] := by simp [NextAddress, h]

/-- An instruction of the program goes on iff memory holds a Command at its address and that Command does. -/
theorem archStep_eq_next {s : State} {m n : Arch} :
    archStep s m = .next n ↔ ∃ i, ifetch s m.pc = .next i ∧ archExec s.cfg i m = .next n := by
  unfold archStep
  split <;> simp_all

@[simp] theorem archReset_pc (s : State) : (archReset s).pc = s.cfg.entryPc := rfl
@[simp] theorem archReset_regs (s : State) : (archReset s).regs = Vector.replicate 32 0 := rfl
@[simp] theorem archReset_dmem (s : State) : (archReset s).dmem = s.dmem := rfl

@[simp] theorem archRunsTo_zero (s : State) (m n : Arch) : ArchRunsTo s 0 m n ↔ n = m := Iff.rfl

@[simp] theorem archRunsTo_succ (s : State) (k : Nat) (m n : Arch) :
    ArchRunsTo s (k + 1) m n ↔ ∃ o, archStep s m = .next o ∧ ArchRunsTo s k o n := Iff.rfl

end Sys2Proof.Machine
end

