-- ==== Sys2Proof/Laws/PerInstr.lean ====
section
/-! SUPPORT. Families of statements about every instruction as syntax, one lemma per constructor. -/

namespace Sys2Proof.Laws

/-- A Command is exactly its six record fields (R90): no field is dropped and no two constructors share them. -/
def Fields.Statement (i : Instr) : Prop :=
  Instr.ofFields i.opcode i.isSrc2Immediate i.dstIndex i.src1Index i.src2Index i.immediateValue = i

theorem Fields.nopR (dst src1 src2 : RegIdx) (imm : Word) : Fields.Statement (.nopR dst src1 src2 imm) := rfl
theorem Fields.nopI (dst src1 src2 : RegIdx) (imm : Word) : Fields.Statement (.nopI dst src1 src2 imm) := rfl
theorem Fields.addR (dst src1 src2 : RegIdx) (imm : Word) : Fields.Statement (.addR dst src1 src2 imm) := rfl
theorem Fields.addI (dst src1 src2 : RegIdx) (imm : Word) : Fields.Statement (.addI dst src1 src2 imm) := rfl
theorem Fields.subR (dst src1 src2 : RegIdx) (imm : Word) : Fields.Statement (.subR dst src1 src2 imm) := rfl
theorem Fields.subI (dst src1 src2 : RegIdx) (imm : Word) : Fields.Statement (.subI dst src1 src2 imm) := rfl
theorem Fields.loadR (dst src1 src2 : RegIdx) (imm : Word) : Fields.Statement (.loadR dst src1 src2 imm) := rfl
theorem Fields.loadI (dst src1 src2 : RegIdx) (imm : Word) : Fields.Statement (.loadI dst src1 src2 imm) := rfl
theorem Fields.storeR (dst src1 src2 : RegIdx) (imm : Word) : Fields.Statement (.storeR dst src1 src2 imm) := rfl
theorem Fields.storeI (dst src1 src2 : RegIdx) (imm : Word) : Fields.Statement (.storeI dst src1 src2 imm) := rfl
theorem Fields.brR (dst src1 src2 : RegIdx) (imm : Word) : Fields.Statement (.brR dst src1 src2 imm) := rfl
theorem Fields.brI (dst src1 src2 : RegIdx) (imm : Word) : Fields.Statement (.brI dst src1 src2 imm) := rfl
theorem Fields.breqR (dst src1 src2 : RegIdx) (imm : Word) : Fields.Statement (.breqR dst src1 src2 imm) := rfl
theorem Fields.breqI (dst src1 src2 : RegIdx) (imm : Word) : Fields.Statement (.breqI dst src1 src2 imm) := rfl
theorem Fields.brneqR (dst src1 src2 : RegIdx) (imm : Word) : Fields.Statement (.brneqR dst src1 src2 imm) := rfl
theorem Fields.brneqI (dst src1 src2 : RegIdx) (imm : Word) : Fields.Statement (.brneqI dst src1 src2 imm) := rfl

/-- A well-formed Command has a packed word, and of its fields the form's own ones alone are not zero (R97, R98). -/
def Packed.Statement (i : Instr) : Prop :=
  ∀ nregs, i.wellFormed nregs = true → encode i = some (encodeWord i) ∧
    (i.isSrc2Immediate = true → i.src2Index = 0) ∧ (i.isSrc2Immediate = false → i.immediateValue = 0)

/-- The proof of `Packed.Statement` through the fields alone. -/
theorem packed_of_fields (i : Instr) : Packed.Statement i := by
  intro nregs h
  simp only [Instr.wellFormed, Bool.and_eq_true] at h
  have hp := h.2
  refine ⟨by simp [encode, hp], fun hi => ?_, fun hi => ?_⟩ <;>
    (unfold Instr.packable at hp; rw [hi] at hp; simp at hp)
  · exact hp.1
  · exact hp

theorem Packed.nopR (dst src1 src2 : RegIdx) (imm : Word) : Packed.Statement (.nopR dst src1 src2 imm) :=
  packed_of_fields _
theorem Packed.nopI (dst src1 src2 : RegIdx) (imm : Word) : Packed.Statement (.nopI dst src1 src2 imm) :=
  packed_of_fields _
theorem Packed.addR (dst src1 src2 : RegIdx) (imm : Word) : Packed.Statement (.addR dst src1 src2 imm) :=
  packed_of_fields _
theorem Packed.addI (dst src1 src2 : RegIdx) (imm : Word) : Packed.Statement (.addI dst src1 src2 imm) :=
  packed_of_fields _
theorem Packed.subR (dst src1 src2 : RegIdx) (imm : Word) : Packed.Statement (.subR dst src1 src2 imm) :=
  packed_of_fields _
theorem Packed.subI (dst src1 src2 : RegIdx) (imm : Word) : Packed.Statement (.subI dst src1 src2 imm) :=
  packed_of_fields _
theorem Packed.loadR (dst src1 src2 : RegIdx) (imm : Word) : Packed.Statement (.loadR dst src1 src2 imm) :=
  packed_of_fields _
theorem Packed.loadI (dst src1 src2 : RegIdx) (imm : Word) : Packed.Statement (.loadI dst src1 src2 imm) :=
  packed_of_fields _
theorem Packed.storeR (dst src1 src2 : RegIdx) (imm : Word) : Packed.Statement (.storeR dst src1 src2 imm) :=
  packed_of_fields _
theorem Packed.storeI (dst src1 src2 : RegIdx) (imm : Word) : Packed.Statement (.storeI dst src1 src2 imm) :=
  packed_of_fields _
theorem Packed.brR (dst src1 src2 : RegIdx) (imm : Word) : Packed.Statement (.brR dst src1 src2 imm) :=
  packed_of_fields _
theorem Packed.brI (dst src1 src2 : RegIdx) (imm : Word) : Packed.Statement (.brI dst src1 src2 imm) :=
  packed_of_fields _
theorem Packed.breqR (dst src1 src2 : RegIdx) (imm : Word) : Packed.Statement (.breqR dst src1 src2 imm) :=
  packed_of_fields _
theorem Packed.breqI (dst src1 src2 : RegIdx) (imm : Word) : Packed.Statement (.breqI dst src1 src2 imm) :=
  packed_of_fields _
theorem Packed.brneqR (dst src1 src2 : RegIdx) (imm : Word) : Packed.Statement (.brneqR dst src1 src2 imm) :=
  packed_of_fields _
theorem Packed.brneqI (dst src1 src2 : RegIdx) (imm : Word) : Packed.Statement (.brneqI dst src1 src2 imm) :=
  packed_of_fields _

end Sys2Proof.Laws
end

