-- ==== Sys2Proof/Tests/Slice0.lean ====
section
/-! SUPPORT. Tests, each on one step or one operation, expected results from spec/95_test_vectors.md and
spec/96_pipeline_vectors.md (the row is named); and for every statement with hypotheses a witness that meets them. -/

namespace Sys2Proof.Tests

open Sys2Proof Sys2Proof.Machine

/-! ### WellFormed: each check refuses an ill-formed Command -/

theorem test_wf_accepts : (Instr.addR 31 30 29 0).wellFormed 32 = true := by decide
theorem test_wf_dst_below_nregs : (Instr.addR 4 1 2 0).wellFormed 4 = false := by decide
theorem test_wf_src1_below_nregs : (Instr.addR 1 4 2 0).wellFormed 4 = false := by decide
theorem test_wf_src2_below_nregs : (Instr.nopR 1 2 4 0).wellFormed 4 = false := by decide
theorem test_wf_register_form_no_immediate : (Instr.addR 1 2 3 1).packable = false := by decide
theorem test_wf_immediate_form_no_src2 : (Instr.addI 1 2 3 1).packable = false := by decide
theorem test_wf_immediate_too_wide : (Instr.addI 1 0 0 32768).packable = false := by decide
theorem test_wf_immediate_too_low : (Instr.addI 1 0 0 0xFFFF7FFF).packable = false := by decide
theorem test_wf_immediate_bounds : immFits16 32767 = true ∧ immFits16 0xFFFF8000 = true := by decide
theorem test_wf_nregs_zero : ({ Config.default with nregs := 0 } : Config).wf = false := by decide
theorem test_wf_nregs_33 : ({ Config.default with nregs := 33 } : Config).wf = false := by decide

/-! ### Decode: every constructor's word, written from R96 (E1 to E16, B9, B16 where the spec has the row) -/

theorem test_decode_nopR : decode 32 0x00000000 = .ok (.nopR 0 0 0 0) := rfl
theorem test_decode_nopI : decode 32 0x0BE5FFFF = .ok (.nopI 31 5 0 0xFFFFFFFF) := rfl
theorem test_decode_addR : decode 32 0x10610004 = .ok (.addR 3 1 4 0) := rfl
theorem test_decode_addI : decode 32 0x18A47FFF = .ok (.addI 5 4 0 32767) := rfl
theorem test_decode_subR : decode 32 0x20810005 = .ok (.subR 4 1 5 0) := rfl
theorem test_decode_subI : decode 32 0x28A48000 = .ok (.subI 5 4 0 0xFFFF8000) := rfl
theorem test_decode_loadR : decode 32 0x33FE001D = .ok (.loadR 31 30 29 0) := rfl
theorem test_decode_loadI : decode 32 0x3822FFFC = .ok (.loadI 1 2 0 0xFFFFFFFC) := rfl
theorem test_decode_storeR : decode 32 0x40430004 = .ok (.storeR 2 3 4 0) := rfl
theorem test_decode_storeI : decode 32 0x48430004 = .ok (.storeI 2 3 0 4) := rfl
theorem test_decode_brR : decode 32 0x50E30004 = .ok (.brR 7 3 4 0) := rfl
/-- `op` 5, `I` 1, `dst` 7, `src1` 0, `imm16` 1: `0101 1 0 00111 00000 0000000000000001`. -/
theorem test_decode_brI : decode 32 0x58E00001 = .ok (.brI 7 0 0 1) := rfl
theorem test_decode_breqR : decode 32 0x60E10002 = .ok (.breqR 7 1 2 0) := rfl
theorem test_decode_breqI : decode 32 0x68E1FFFF = .ok (.breqI 7 1 0 0xFFFFFFFF) := rfl
theorem test_decode_brneqR : decode 32 0x70C10000 = .ok (.brneqR 6 1 0 0) := rfl
theorem test_decode_brneqI : decode 32 0x7BFFFFFE = .ok (.brneqI 31 31 0 0xFFFFFFFE) := rfl

theorem test_reserved_X1 : decode 32 0x80000000 = .error .unknownOpcode := rfl
theorem test_reserved_X2 : decode 32 0xF0000000 = .error .unknownOpcode := rfl
theorem test_reserved_X3 : decode 32 0xFFFFFFFF = .error .unknownOpcode := rfl
theorem test_reserved_X4 : decode 32 0x14000000 = .error .reservedEncoding := rfl
theorem test_reserved_X5 : decode 32 0x04000000 = .error .reservedEncoding := rfl
theorem test_reserved_X6 : decode 32 0x10000020 = .error .reservedEncoding := rfl
theorem test_reserved_X7 : decode 32 0x10008000 = .error .reservedEncoding := rfl
theorem test_reserved_X8 : decode 4 0x10610004 = .error .registerIndexOutOfRange := rfl

theorem test_encode_E8 : encode (.storeI 2 3 0 4) = some 0x48430004 := by decide
theorem test_encode_E14 : encode (.brneqI 31 31 0 0xFFFFFFFE) = some 0x7BFFFFFE := by decide
/-- U7: an immediate of 32768 has no packed word. -/
theorem test_encode_none : encode (.addI 1 0 0 32768) = none := by decide

/-- Byte layout of 0x38220000 (section 2.4): 00, 00, 22, 38 from the lowest address up. -/
theorem test_byte_layout : (List.range 4).map (byteOfWord 0x38220000) = [0x00, 0x00, 0x22, 0x38] := by decide
theorem test_decodeBytes : decodeBytes 32 [0x00, 0x00, 0x22, 0x38, 0xAA] = .ok (.loadI 1 2 0 0, [0xAA]) := rfl
theorem test_decodeBytes_short : decodeBytes 32 [0x00, 0x00, 0x22] = .error .tooFewBytes := rfl
theorem test_decodeTableWord : decodeTableWord 32 0x10610004 = some (.addR 3 1 4 0) := rfl

/-! ### Execute, Memory and Write-Back, one compute step -/

/-- The Execute stage holding `i` with Decode-time operand values `a`, `b`, `d`, fetched at `pc`. -/
def inExecute (i : Instr) (a b d pc : Word) : State :=
  atStage .execute { State.reset with slotE := { cmd := i, src1Val := a, src2Val := b, ipc := pc, dstVal := d } }

/-- The Memory stage holding `i` with address `addr` and store data `v`, the word `w` at address 0x40. -/
def inMemory (i : Instr) (addr v w : Word) : State :=
  atStage .memory { State.reset with
    slotM := { Slot.empty with cmd := i, src1Val := v }, memRes := addr, dmem := writeWord [] 0x40 w }

/-- The outcome is a next state with the property. -/
def nextWith (o : Out) (p : State → Bool) : Bool :=
  match o with
  | .next s => p s
  | .fault _ => false
  | .refused _ => false

/-- `EXres`, `EXtaken`, `EXtarget` after the Execute compute of `i`. -/
def latches (i : Instr) (a b d pc : Word) : Option (Word × Bool × Word) :=
  match exec i (inExecute i a b d pc) with
  | .next s => some (s.exRes, s.exTaken, s.exTarget)
  | .fault _ => none
  | .refused _ => none

/-- A2: a NOP with operands not zero. -/
theorem test_nopI : latches (.nopI 31 5 0 0xFFFFFFFF) 7 9 5 0 = some (0, false, 0) := by decide
theorem test_nopR : latches (.nopR 1 2 3 0) 7 9 5 0 = some (0, false, 0) := by decide
/-- A3: signed overflow wraps. -/
theorem test_addR : latches (.addR 3 1 2 0) 0x7FFFFFFF 1 0 0 = some (0x80000000, false, 0) := by decide
/-- A8. -/
theorem test_addI : latches (.addI 5 4 0 0xFFFF8000) 0 0xFFFF8000 0 0 = some (0xFFFF8000, false, 0) := by decide
/-- A16: operand order. -/
theorem test_subR : latches (.subR 3 1 2 0) 3 5 0 0 = some (0xFFFFFFFE, false, 0) := by decide
/-- A15. -/
theorem test_subI : latches (.subI 5 4 0 0xFFFFFFFF) 0x7FFFFFFF 0xFFFFFFFF 0 0 = some (0x80000000, false, 0) := by decide
/-- M3: the address; the destination's value 0x999 plays no part. -/
theorem test_loadR : latches (.loadR 1 2 3 0) 0x100 8 0x999 0 = some (0x108, false, 0) := by decide
/-- M5: the address wraps. -/
theorem test_loadI : latches (.loadI 1 2 0 8) 0xFFFFFFFC 8 0 0 = some (4, false, 0) := by decide
/-- M9: base is the `dst` value 0x100, offset -4; the data 5 plays no part. -/
theorem test_storeR : latches (.storeR 2 3 4 0) 5 0xFFFFFFFC 0x100 0 = some (0xFC, false, 0) := by decide
/-- M8. -/
theorem test_storeI : latches (.storeI 2 3 0 4) 0x22 4 0x100 0 = some (0x104, false, 0) := by decide
/-- B3: backward, own address added. -/
theorem test_brR : latches (.brR 6 0 0 0) 0 0 0xFFFFFFF8 0x10 = some (0, true, 0x08) := by decide
/-- B1 in the immediate form: the immediate is ignored. -/
theorem test_brI : latches (.brI 7 0 0 3) 0 3 0x10 0x04 = some (0, true, 0x14) := by decide
/-- B7, B8. -/
theorem test_breqR : latches (.breqR 7 1 2 0) 1 1 0xC 0x08 = some (0, true, 0x14) ∧
    latches (.breqR 7 1 2 0) 1 2 0xC 0x08 = some (0, false, 0x14) := by decide
/-- B10: 0x0000FFFF is not 0xFFFFFFFF. -/
theorem test_breqI : latches (.breqI 7 1 0 0xFFFFFFFF) 0xFFFF 0xFFFFFFFF 0xC 0x08 = some (0, false, 0x14) := by decide
/-- B13, B14. -/
theorem test_brneqR : latches (.brneqR 6 1 0 0) 2 0 0xFFFFFFF8 0x10 = some (0, true, 0x08) ∧
    latches (.brneqR 6 1 0 0) 0 0 0xFFFFFFF8 0x10 = some (0, false, 0x08) := by decide
/-- B16. -/
theorem test_brneqI : latches (.brneqI 7 1 0 0) 0x80000000 0 0xC 0x08 = some (0, true, 0x14) := by decide
/-- B4: the target wraps. -/
theorem test_br_target_wraps : latches (.brR 7 0 0 0) 0 0 8 0xFFFFFFFC = some (0, true, 4) := by decide

/-- M1: `MEMload` takes 7. -/
theorem test_load_memory : nextWith (exec (.loadI 1 2 0 0) (inMemory (.loadI 1 2 0 0) 0x40 0 7))
    (fun s => s.memLoad == 7 && s.calls == [.ifetch 0, .dread 0x40 (some 7)]) = true := by decide
/-- M8: the store data is `src1Val`. -/
theorem test_store_memory : nextWith (exec (.storeI 2 3 0 0) (inMemory (.storeI 2 3 0 0) 0x104 0x22 7))
    (fun s => readWord s.dmem 0x104 == 0x22 && readWord s.dmem 0x40 == 7) = true := by decide
/-- M7: a misaligned address is refused. -/
theorem test_load_misaligned :
    exec (.loadI 1 2 0 0) (inMemory (.loadI 1 2 0 0) 0x42 0 7) = .refused .misalignedDataAddress := rfl
/-- A9: `r0` is an ordinary register. -/
theorem test_r0_is_written : nextWith (exec (.addI 0 0 0 1) (atStage .writeBack { State.reset with wbVal := 1 }))
    (fun s => readReg s 0 == 1) = true := by decide
/-- M13: a STORE writes no register. -/
theorem test_store_writes_no_register :
    nextWith (exec (.storeI 2 3 0 0) (atStage .writeBack { State.reset with wbVal := 1 }))
      (fun s => s.regs == State.reset.regs) = true := by decide

/-! ### The instruction level, one instruction -/

/-- An instruction-level state at 0 with two registers and one word set. -/
def archWith (r q : RegIdx) (v w : Word) (a d : Word) : Arch :=
  { pc := 0, regs := ((State.reset.regs.set r.toNat v r.isLt).set q.toNat w q.isLt), dmem := writeWord [] a d }

/-- M4: destination equals base, the address is from the old value. -/
theorem test_arch_load : archExec Config.default (.loadI 2 2 0 0) (archWith 2 3 0x40 0 0x40 0x44) =
    .next { archWith 2 3 0x44 0 0x40 0x44 with pc := 4 } := rfl
/-- M12: `x[2]` is stored at address `x[3]`. -/
theorem test_arch_store : archExec Config.default (.storeI 3 2 0 0) (archWith 2 3 0x100 0x20 0x20 0x9) =
    .next { archWith 2 3 0x100 0x20 0x20 0x100 with pc := 4 } := rfl

/-! ### Memory -/

theorem test_unlisted_reads_zero : readWord [] 0x200 = 0 := by decide
theorem test_write_zero_removes : writeWord (writeWord [] 0xFFFFFFFC 1) 0xFFFFFFFC 0 = [] := by decide
theorem test_word_is_little_endian : writeWord [] 0x40 0x11220033 = [(0x40, 0x33), (0x42, 0x22), (0x43, 0x11)] := by decide
theorem test_wf_refuses_zero : Memory.wf [(4, 0)] = false := by decide
theorem test_wf_refuses_order : Memory.wf [(5, 1), (4, 1)] = false := by decide
theorem test_wf_refuses_beyond : Memory.wf [(0x100000000, 1)] = false := by decide

/-! ### Small states of the pipeline -/

/-- After reset, `LOAD r1 <- [r2 + #0]` at address 0 and in Fetch, `ADD r1 <- r2 + r3` at address 4. -/
def reset2 : State := placeWord 4 0x10220003 (State.reset.withFetchWord 32 0x38220000)

/-- A stall: `LOAD r1` at address 0x40 in Memory, its read not ready since the last tick. -/
def stalledState : State :=
  { State.reset with slotM := { Slot.empty with cmd := .loadI 1 2 0 0 }, memRes := 0x40, canAdvance := false
                     readyDefault := false, dmem := writeWord [] 0x40 7 }

/-- The same LOAD in Memory in a tick in which its read is ready. -/
def loadState : State := { stalledState with canAdvance := true, readyDefault := true }

/-- A load-use pair: `LOAD r1 <- [r2 + #0]` from address 0 in Execute, `ADD r3 <- r1 + r4` from address 4 in Decode. -/
def bubbleState : State :=
  { placeWord 4 0x10610004 (placeWord 0 0x38220000 State.reset) with
    slotE := { Slot.empty with cmd := .loadI 1 2 0 0 }
    slotD := { Slot.empty with cmd := .addR 3 1 4 0, ipc := 4 }
    slotF := Slot.fetched .emptyNop 8, pc := 8, hazardPending := true }

/-- The same pair with a base register that makes the LOAD's address 0x42. -/
def misalignedState : State :=
  { writeReg 2 0x42 bubbleState with slotE := { Slot.empty with cmd := .loadI 1 2 0 0, src1Val := 0x42 } }

/-- `ADD r5 <- r4 + #1` from address 0 in Execute, `x[4] = 7`, NOPs behind it. -/
def normalState : State :=
  { writeReg 4 7 (placeWord 0 0x18A40001 State.reset) with
    slotE := { Slot.empty with cmd := .addI 5 4 0 1, src1Val := 7, src2Val := 1 }
    slotD := { Slot.empty with ipc := 4 }, slotF := Slot.fetched .emptyNop 8, pc := 8 }

/-- Program F of spec/95_test_vectors.md in small: `LOAD r2 <- [r1 + #0]` in Memory, its word 7, and directly behind it
`STORE [r2 + #4] <- r3` in Execute, `x[2] = 0x100` before the LOAD and `x[3] = 0x22`. -/
def storeBaseState : State :=
  { writeReg 3 0x22 (writeReg 2 0x100 (placeWord 4 0x48430004 State.reset)) with
    slotM := { Slot.empty with cmd := .loadI 2 1 0 0 }, memRes := 0x40, dmem := writeWord [] 0x40 7
    slotE := { cmd := .storeI 2 3 0 4, src1Val := 0x22, src2Val := 4, ipc := 4, dstVal := 0x100 }
    slotD := { Slot.empty with ipc := 8 }, slotF := Slot.fetched .emptyNop 12, pc := 12 }

/-- A Command without a packed word, given as a record at address 0 and in Fetch. -/
def recordState : State :=
  setSlotF (Slot.fetched (.addI 1 0 0 32768) 0) (placeRecord 0 ⟨1, 0, 0, 1, true, 32768⟩ State.reset)

/-- The instruction-level state with everything in Write-Back and Memory completed, next instruction at `p`. -/
def archOf (s : State) (p : Word) : Arch := { pc := p, regs := completedRegs s, dmem := completedDmem s }

/-- A taken branch to 8 in Memory, an instruction to be flushed in Execute. -/
def flushState : State :=
  { State.reset with slotM := { Slot.empty with cmd := .brR 7 0 0 0 }, memTaken := true, memTarget := 8
                     slotE := { Slot.empty with cmd := .addI 1 0 0 1, src2Val := 1 } }

/-- `ADD r1` in Write-Back with the value 9, and `ADD r3 <- r1 + r1` (destination `r1` too) in Decode (V2, S6). -/
def writingState : State :=
  { State.reset with slotW := { Slot.empty with cmd := .addR 1 2 3 0 }, wbVal := 9
                     slotD := { Slot.empty with cmd := .addR 1 1 1 0 } }

/-- A STORE of 0x22 to the last word of the address space in Memory. -/
def storeState : State :=
  { State.reset with slotM := { Slot.empty with cmd := .storeI 2 3 0 0, src1Val := 0x22 }, memRes := 0xFFFFFFFC }

theorem test_withFetchWord_runs : nextWith (step (State.reset.withFetchWord 32 0x10610004))
    (fun s => s.slotD.cmd == .addR 3 1 4 0 && s.slotD.ipc == 0 && s.pc == 4) = true := by decide
theorem test_withFetchWord_stops : step (State.reset.withFetchWord 32 0x80000000) = .refused .unknownOpcodeWord := rfl
theorem test_placeRecord_runs : ifetch (placeRecord 8 ⟨1, 0, 0, 1, true, 32768⟩ State.reset) 8 =
    .next (.addI 1 0 0 32768) := rfl
/-- U1: an opcode number of 8 at the record interface is a fault. -/
theorem test_record_unknown_opcode :
    ifetch (placeRecord 8 ⟨8, 40, 0, 1, true, 0⟩ State.reset) 8 = .fault .unknownOpcode := rfl
/-- U2. -/
theorem test_record_index : ifetch (placeRecord 8 ⟨0, 0, 0, 32, true, 0⟩ State.reset) 8 =
    .fault .registerIndexOutOfRange := rfl
/-- B17: `IFetch(2)` is refused. -/
theorem test_misaligned_fetch : step { flushState with memTarget := 2 } = .refused .misalignedInstructionAddress := rfl

/-- Program F: the STORE goes to the old base + 4, 0x104, with its data, and `r2` receives the loaded value. -/
theorem test_store_uses_old_base : nextWith (step storeBaseState)
    (fun t => t.memRes == 0x104 && t.slotM.src1Val == 0x22 && t.wbVal == 7) = true := by decide

/-! ### Witnesses: concrete states and operands that meet the hypotheses of each statement -/

theorem witness_DecodeOfEncodeIsTheCommand :
    (Instr.addI 5 4 0 32767).wellFormed 6 = true ∧ (Instr.storeR 31 30 29 0).wellFormed 32 = true := by decide

theorem witness_EncodeOfDecodeIsTheWord : decode 6 0x18A48000 = .ok (.addI 5 4 0 0xFFFF8000) := rfl

theorem witness_RowMatchIsDecoding :
    (0x10610004#32 &&& 0xFC00FFE0#32 = 0x10000000#32) ∧ decode 32 0x10610004 = .ok (.addR 3 1 4 0) := ⟨by decide, rfl⟩

/-- Each clause at the edge of its range: `op` 8 and 7, bit 26, bit 5, an index of 4 with 4 and with 5 registers. -/
theorem witness_ReservedWordsAreRejectedByName :
    8 ≤ (opField 0x80000000).toNat ∧ (opField 0x7FFFFFFF).toNat < 8 ∧ reservedBit 0x04000000 = true ∧
      immFlag 0x10000020 = false ∧ zeroField 0x10000020 ≠ 0 ∧
      (4 ≤ (src2Field 0x10610004).toNat ∧ decode 4 0x10610004 = .error .registerIndexOutOfRange) ∧
      ((src2Field 0x10610004).toNat < 5 ∧ decode 5 0x10610004 = .ok (.addR 3 1 4 0)) :=
  ⟨by decide, by decide, by decide, by decide, by decide, ⟨by decide, rfl⟩, ⟨by decide, rfl⟩⟩

theorem witness_RecordCheckAcceptsExactlyTheCommands :
    (Instr.subI 31 31 31 0x80000000).indicesBelow 32 = true ∧ (Instr.subI 0 0 0 1).indicesBelow 1 = true ∧
      Record.check 32 ⟨8, 32, 0, 0, false, 0⟩ = .error .unknownOpcode ∧
      Record.check 32 ⟨7, 0, 32, 0, false, 0⟩ = .error .registerIndexOutOfRange := ⟨by decide, by decide, rfl, rfl⟩

theorem witness_DecodeStageResolvesEveryInstruction : (atStage .decode writingState).stage = .decode := rfl
theorem witness_FetchStageChangesNothing : (atStage .fetch writingState).stage = .fetch := rfl

theorem witness_NopPassesItsStages : (inExecute (.nopR 0 0 0 0) 1 2 3 4).stage = .execute ∧
    (inMemory (.nopR 0 0 0 0) 0 0 0).stage = .memory ∧ (atStage .writeBack State.reset).stage = .writeBack := by decide
theorem witness_AddPassesItsStages : (inExecute (.addR 1 2 3 0) 1 2 3 4).stage = .execute ∧
    (inMemory (.addR 1 2 3 0) 3 0 0).stage = .memory ∧ (atStage .writeBack State.reset).stage = .writeBack := by decide
theorem witness_SubPassesItsStages : (inExecute (.subR 1 2 3 0) 1 2 3 4).stage = .execute ∧
    (inMemory (.subR 1 2 3 0) 3 0 0).stage = .memory ∧ (atStage .writeBack State.reset).stage = .writeBack := by decide
theorem witness_LoadFormsAddressAndWritesItsRegister : (inExecute (.loadR 1 2 3 0) 1 2 3 4).stage = .execute ∧
    (atStage .writeBack State.reset).stage = .writeBack := by decide
theorem witness_StoreFormsAddressFromItsDstRegister : (inExecute (.storeR 1 2 3 0) 1 2 3 4).stage = .execute ∧
    (atStage .writeBack State.reset).stage = .writeBack := by decide
theorem witness_BrIsAlwaysTaken : (inExecute (.brR 7 0 0 0) 1 2 3 4).stage = .execute ∧
    (inMemory (.brR 7 0 0 0) 0 0 0).stage = .memory ∧ (atStage .writeBack State.reset).stage = .writeBack := by decide
theorem witness_BreqIsTakenIffEqual : (inExecute (.breqR 7 1 2 0) 1 1 3 4).stage = .execute ∧
    (inMemory (.breqR 7 1 2 0) 0 0 0).stage = .memory ∧ (atStage .writeBack State.reset).stage = .writeBack := by decide
theorem witness_BrneqIsTakenIffDifferent : (inExecute (.brneqR 7 1 2 0) 1 1 3 4).stage = .execute ∧
    (inMemory (.brneqR 7 1 2 0) 0 0 0).stage = .memory ∧ (atStage .writeBack State.reset).stage = .writeBack := by decide

/-- Ready and aligned (the last word), not ready, and misaligned by one byte on either side. -/
theorem witness_LoadReadsOrHoldsThePipeline :
    (Instr.loadI 1 2 0 0).opcode = .load ∧ (atStage .memory loadState).stage = .memory ∧
      aligned loadState.memRes = true ∧ aligned (0xFFFFFFFC : Word) = true ∧ ready loadState loadState.tick = true ∧
      ready stalledState stalledState.tick = false ∧ aligned (0x41 : Word) = false ∧ aligned (0x3F : Word) = false := by
  decide

theorem witness_StoreWritesItsWordAndNothingElse :
    (Instr.storeI 2 3 0 0).opcode = .store ∧ (atStage .memory storeState).stage = .memory ∧
      aligned storeState.memRes = true ∧ Memory.wf storeState.dmem = true ∧ aligned (0xFFFFFFFD : Word) = false := by
  decide

/-- Tier 1; Write-Back only (a LOAD in Memory is no tier 1 writer); neither. -/
theorem witness_ForwardingTakesTheYoungestWriter :
    forward { writingState with slotM := { Slot.empty with cmd := .subR 1 2 3 0 }, memRes := 5 } 1 0 = 5 ∧
      forward { writingState with slotM := { Slot.empty with cmd := .loadR 1 2 3 0 }, memRes := 5 } 1 0 = 9 ∧
      forward writingState 2 4 = 4 := by decide

theorem witness_HazardIsTheLoadUsePair :
    hazardBetween (.loadI 1 2 0 0) (.addR 3 1 4 0) = true ∧ hazardBetween (.loadI 1 2 0 0) (.brR 1 1 1 0) = true ∧
      hazardBetween (.loadI 1 2 0 0) (.brR 7 1 1 0) = false ∧ hazardBetween (.loadI 1 2 0 0) (.addI 1 2 1 0) = false := by
  decide

theorem witness_StoreBehindLoadUsesTheOldBase :
    hazardBetween (.loadI 2 1 0 0) (.storeI 2 3 0 0) = false ∧ hazardBetween (.loadI 2 1 0 0) (.storeR 2 3 4 0) = false ∧
      nextWith (exec (.storeI 2 3 0 4) { inExecute (.storeI 2 3 0 4) 0x22 4 0x100 0 with
        slotM := { Slot.empty with cmd := .loadI 2 1 0 0 } }) (fun t => t.exRes == 0x104) = true := by decide

theorem witness_StepRunsTheOccupantsOfTheSlots :
    (∃ t u v w x : State, exec writingState.slotW.cmd (atStage .writeBack (beginTick writingState)) = .next t ∧
      writingState.canAdvance = true ∧ exec t.slotM.cmd (atStage .memory (setCanAdvance true t)) = .next u ∧
      exec u.slotE.cmd (atStage .execute u) = .next v ∧ exec v.slotD.cmd (atStage .decode v) = .next w ∧
      exec w.slotF.cmd (atStage .fetch w) = .next x) ∧
    (∃ t u : State, exec stalledState.slotW.cmd (atStage .writeBack (beginTick stalledState)) = .next t ∧
      stalledState.canAdvance = false ∧
      exec t.slotM.cmd (atStage .memory (setCanAdvance true (clearWriteBack t))) = .next u) :=
  ⟨⟨_, _, _, _, _, rfl, rfl, rfl, rfl, rfl, rfl⟩, ⟨_, _, rfl, rfl, rfl⟩⟩

/-- The invariants at reset with a program word placed at `pc`. -/
theorem inv_reset2 : Inv reset2 :=
  ⟨rfl, rfl, by decide, by decide, rfl, rfl, by decide, ⟨0, .inl ⟨rfl, rfl, .inl ⟨rfl, rfl, rfl⟩⟩⟩, rfl, rfl, rfl, rfl⟩

theorem inv_record : Inv recordState :=
  ⟨rfl, rfl, by decide, by decide, rfl, rfl, by decide, ⟨0, .inl ⟨rfl, rfl, .inl ⟨rfl, rfl, rfl⟩⟩⟩, rfl, rfl, rfl, rfl⟩

/-- A packed word, and a record, at `pc`. -/
theorem witness_BytesAtPcRunAsDecoded : (Inv reset2 ∧ lookup none reset2.irec reset2.pc.toNat = none ∧
      decode reset2.cfg.nregs (readWord reset2.imem reset2.pc) = .ok (.loadI 1 2 0 0) ∧
      ∃ t, step reset2 = .next t ∧ t.canAdvance = true ∧ reset2.hazardPending = false ∧ reset2.memTaken = false) ∧
    (Inv recordState ∧
      (∃ r, lookup none recordState.irec recordState.pc.toNat = some r ∧
        r.check recordState.cfg.nregs = .ok (.addI 1 0 0 32768)) ∧
      ∃ t, step recordState = .next t ∧ t.canAdvance = true ∧ recordState.hazardPending = false ∧
        recordState.memTaken = false) :=
  ⟨⟨inv_reset2, rfl, rfl, _, rfl, rfl, rfl, rfl⟩, ⟨inv_record, ⟨_, rfl, rfl⟩, _, rfl, rfl, rfl, rfl⟩⟩

/-- All four cases of `pc`: stalled, bubble, flush, sequential. -/
theorem witness_PcAfterOneTick :
    nextWith (step stalledState) (fun t => t.pc == 0 && !t.canAdvance) = true ∧
      nextWith (step bubbleState) (fun t => t.pc == 8 && t.canAdvance) = true ∧
      nextWith (step flushState) (fun t => t.pc == 8) = true ∧
      nextWith (step State.reset) (fun t => t.pc == 4) = true := by decide

theorem witness_NormalAdvanceRecomputesTheHazard : ∃ t, step flushState = .next t ∧ t.canAdvance = true ∧
    ¬(flushState.hazardPending = true ∧ flushState.memTaken = false) := ⟨_, rfl, rfl, by decide⟩

theorem witness_AdvanceTakesOneOfTwoPaths :
    (bubbleState.hazardPending = true ∧ bubbleState.memTaken = false) ∧
      ¬(flushState.hazardPending = true ∧ flushState.memTaken = false) := by decide

theorem witness_NormalTickShiftsEverySlot : ∃ t, step writingState = .next t ∧ t.canAdvance = true ∧
    writingState.hazardPending = false ∧ writingState.memTaken = false := ⟨_, rfl, rfl, rfl, rfl⟩

theorem witness_FlushTickDiscardsThreeInstructions : ∃ t, step flushState = .next t ∧ t.canAdvance = true ∧
    flushState.memTaken = true := ⟨_, rfl, rfl, rfl⟩

theorem witness_BubbleTickMovesDownstreamOnly : ∃ t, step bubbleState = .next t ∧ t.canAdvance = true ∧
    bubbleState.hazardPending = true ∧ bubbleState.memTaken = false := ⟨_, rfl, rfl, rfl, rfl⟩

/-- A retry tick, a first stalled tick, and a tick that does not stall. -/
theorem witness_StalledTickMovesNothing : (∃ t, step stalledState = .next t ∧ t.canAdvance = false) ∧
    (∃ t, step { stalledState with canAdvance := true } = .next t ∧ t.canAdvance = false) ∧
    (∃ t, step loadState = .next t ∧ t.canAdvance = true) := ⟨⟨_, rfl, rfl⟩, ⟨_, rfl, rfl⟩, ⟨_, rfl, rfl⟩⟩

theorem witness_ReadyReadAdvancesInItsOwnTick : ∃ t, step { loadState with canAdvance := false } = .next t ∧
    loadState.slotM.cmd.opcode = .load ∧ ready loadState (loadState.tick + 1) = true := ⟨_, rfl, rfl, rfl⟩

theorem witness_PortCallsOfOneTick :
    nextWith (step loadState) (fun t => t.calls == [.dread 0x40 (some 7), .ifetch 4]) = true ∧
      nextWith (step stalledState) (fun t => t.calls == [.dread 0x40 none]) = true ∧
      nextWith (step storeState) (fun t => t.calls == [.dwrite 0xFFFFFFFC 0x22, .ifetch 4]) = true := by decide

theorem witness_OneTickWritesOneRegisterAndOneWord : ∃ t, step storeState = .next t ∧
    storeState.slotM.cmd.opcode = .store ∧ Memory.wf storeState.dmem = true ∧
    loadState.slotM.cmd.opcode ≠ .store := ⟨_, rfl, rfl, rfl, by decide⟩

theorem witness_OneTickLeavesTheEnvironmentAlone : ∃ t, step storeState = .next t := ⟨_, rfl⟩

theorem witness_DecodeReadsWhatWriteBackWrites : ∃ t, step writingState = .next t ∧ writingState.canAdvance = true ∧
    writesRegister writingState.slotW.cmd.opcode = true ∧ t.canAdvance = true ∧
    writingState.hazardPending = false ∧ writingState.memTaken = false ∧
    writingState.slotD.cmd.src1Index = writingState.slotW.cmd.dstIndex ∧
    writingState.slotD.cmd.isSrc2Immediate = false ∧
    writingState.slotD.cmd.src2Index = writingState.slotW.cmd.dstIndex ∧
    writingState.slotD.cmd.dstIndex = writingState.slotW.cmd.dstIndex := ⟨_, rfl, rfl, rfl, rfl, rfl, rfl, rfl, rfl, rfl, rfl⟩

/-- A normal advance; a stalled tick and a bubble tick with no Command at the next address. -/
theorem witness_TickGoesOnWithoutUndefinedInputs :
    ((storeState.slotM.cmd.opcode = .load ∨ storeState.slotM.cmd.opcode = .store → aligned storeState.memRes = true) ∧
      (∃ c, ifetch storeState (nextPc storeState) = .next c)) ∧
    (aligned (placeWord 4 0x80000000 stalledState).memRes = true ∧ stalledState.slotM.cmd.opcode = .load ∧
      ready stalledState (stalledState.tick + 1) = false ∧
      ifetch (placeWord 4 0x80000000 stalledState) (nextPc stalledState) = .refused .unknownOpcodeWord) ∧
    (bubbleState.hazardPending = true ∧ bubbleState.memTaken = false ∧
      ifetch (placeWord 12 0x80000000 bubbleState) (nextPc bubbleState) = .refused .unknownOpcodeWord) :=
  ⟨⟨fun _ => rfl, _, rfl⟩, ⟨rfl, rfl, rfl, rfl⟩, ⟨rfl, rfl, rfl⟩⟩

/-- A misaligned STORE in Memory; with an aligned STORE, and with a ready LOAD, in Memory a fetch of a word that is no
Command; a fetch of a record that is none. -/
theorem witness_UndefinedInputsStopTheTick :
    (storeState.slotM.cmd.opcode = .store ∧ aligned ({ storeState with memRes := 0xFFFFFFFE } : State).memRes = false) ∧
    (storeState.slotM.cmd.opcode = .store ∧ aligned storeState.memRes = true ∧
      ¬(storeState.hazardPending = true ∧ storeState.memTaken = false) ∧
      ifetch (placeWord 4 0x80000000 storeState) (nextPc storeState) = .refused .unknownOpcodeWord) ∧
    (loadState.slotM.cmd.opcode = .load ∧ aligned loadState.memRes = true ∧
      ¬(loadState.slotM.cmd.opcode = .load ∧ ready loadState (loadState.tick + 1) = false) ∧
      ¬(loadState.hazardPending = true ∧ loadState.memTaken = false) ∧
      ifetch (placeRecord 4 ⟨9, 0, 0, 0, false, 0⟩ loadState) (nextPc loadState) = .fault .unknownOpcode) :=
  ⟨by decide, ⟨rfl, rfl, by decide, rfl⟩, ⟨rfl, rfl, by decide, by decide, rfl⟩⟩

theorem witness_FetchPortAnswersByName : aligned (3 : Word) = false ∧ aligned (4 : Word) = true ∧
    lookup none (placeWord 4 0x14000000 State.reset).irec 4 = none ∧
    decode 32 (readWord (placeWord 4 0x14000000 State.reset).imem 4) = .error .reservedEncoding ∧
    decode 32 0x80000000 = .error .unknownOpcode ∧ decode 4 0x10610004 = .error .registerIndexOutOfRange ∧
    lookup none (placeRecord 4 ⟨1, 0, 0, 1, true, 32768⟩ State.reset).irec 4 = some ⟨1, 0, 0, 1, true, 32768⟩ :=
  ⟨rfl, rfl, rfl, rfl, rfl, rfl, rfl⟩

theorem witness_ResetSatisfiesTheInvariant : stalledState.cfg.wf = true ∧ Memory.wf stalledState.dmem = true ∧
    (∃ t, coreReset stalledState = .next t) ∧ (∃ t, coreReset bubbleState = .next t) := ⟨rfl, rfl, ⟨_, rfl⟩, ⟨_, rfl⟩⟩

theorem witness_StallOfAnyLengthFreezesThePipeline : stalledState.canAdvance = false ∧
    stalledState.slotM.cmd.opcode = .load ∧ aligned stalledState.memRes = true ∧
    (∀ j, j < 2 → ready stalledState (stalledState.tick + j + 1) = false) := ⟨rfl, rfl, rfl, by decide⟩

theorem inv_stalled : Inv stalledState :=
  ⟨rfl, rfl, fun _ => rfl, fun _ h => (nomatch h), rfl, rfl, fun h => (nomatch h),
    ⟨0, .inl ⟨rfl, rfl, .inl ⟨rfl, rfl, rfl⟩⟩⟩, rfl, rfl, rfl, rfl⟩

theorem inv_flush : Inv flushState :=
  ⟨rfl, rfl, fun h => (nomatch h), fun h _ => (nomatch h), rfl, rfl, fun _ => rfl, ⟨8, rfl⟩, rfl, rfl, rfl, rfl⟩

theorem inv_bubble : Inv bubbleState :=
  ⟨rfl, rfl, fun h => (nomatch h), fun h _ => (nomatch h), rfl, rfl, fun h => (nomatch h),
    ⟨0, .inr ⟨rfl, rfl, .inr ⟨rfl, rfl, rfl⟩⟩⟩, rfl, rfl, rfl, rfl⟩

theorem inv_misaligned : Inv misalignedState :=
  ⟨rfl, rfl, fun h => (nomatch h), fun h _ => (nomatch h), rfl, rfl, fun h => (nomatch h),
    ⟨0, .inr ⟨rfl, rfl, .inr ⟨rfl, rfl, rfl⟩⟩⟩, rfl, rfl, rfl, rfl⟩

theorem inv_normal : Inv normalState :=
  ⟨rfl, rfl, fun h => (nomatch h), fun h _ => (nomatch h), rfl, rfl, fun h => (nomatch h),
    ⟨0, .inr ⟨rfl, rfl, .inr ⟨rfl, rfl, rfl⟩⟩⟩, rfl, rfl, rfl, rfl⟩

theorem inv_storeBase : Inv storeBaseState :=
  ⟨rfl, rfl, fun h => (nomatch h), fun h _ => (nomatch h), rfl, rfl, fun h => (nomatch h),
    ⟨4, .inr ⟨rfl, rfl, .inr ⟨rfl, rfl, rfl⟩⟩⟩, rfl, rfl, rfl, rfl⟩

theorem coherent_stalled : Coherent stalledState :=
  ⟨fun h => absurd rfl h, fun h => absurd rfl h, fun h => (nomatch h), fun _ => ⟨rfl, rfl, rfl⟩, fun _ => rfl,
    fun _ => rfl, fun _ => rfl, fun _ h => (nomatch h)⟩

theorem coherent_bubble : Coherent bubbleState :=
  ⟨fun _ => rfl, fun _ => rfl, fun h => (nomatch h), fun h => (nomatch h), fun h => (nomatch h),
    fun h => (nomatch h), fun h => (nomatch h), fun h => (nomatch h)⟩

theorem coherent_misaligned : Coherent misalignedState :=
  ⟨fun _ => rfl, fun _ => rfl, fun h => (nomatch h), fun h => (nomatch h), fun h => (nomatch h),
    fun h => (nomatch h), fun h => (nomatch h), fun h => (nomatch h)⟩

theorem coherent_normal : Coherent normalState :=
  ⟨fun _ => rfl, fun _ => rfl, fun h => (nomatch h), fun h => (nomatch h), fun h => (nomatch h),
    fun h => (nomatch h), fun h => (nomatch h), fun h => (nomatch h)⟩

theorem coherent_storeBase : Coherent storeBaseState :=
  ⟨fun _ => rfl, fun _ => rfl, fun _ => rfl, fun h => (nomatch h), fun h => (nomatch h),
    fun h => (nomatch h), fun h => (nomatch h), fun h => (nomatch h)⟩

theorem coherent_flush : Coherent flushState :=
  ⟨fun _ => rfl, fun _ => rfl, fun h => (nomatch h), fun h => (nomatch h), fun h => (nomatch h),
    fun h => (nomatch h), fun h => (nomatch h), fun h => (nomatch h)⟩

/-- In a stall, at a bubble, at a flush and in a normal advance. -/
theorem witness_EveryTickKeepsTheInvariant : (Inv stalledState ∧ ∃ t, step stalledState = .next t) ∧
    (Inv bubbleState ∧ ∃ t, step bubbleState = .next t) ∧ (Inv flushState ∧ ∃ t, step flushState = .next t) ∧
    (Inv normalState ∧ ∃ t, step normalState = .next t) :=
  ⟨⟨inv_stalled, _, rfl⟩, ⟨inv_bubble, _, rfl⟩, ⟨inv_flush, _, rfl⟩, ⟨inv_normal, _, rfl⟩⟩

theorem witness_EveryTickKeepsOperandsCoherent : (Inv stalledState ∧ Coherent stalledState ∧
    ∃ t, step stalledState = .next t) ∧ (Inv flushState ∧ Coherent flushState ∧ ∃ t, step flushState = .next t) :=
  ⟨⟨inv_stalled, coherent_stalled, _, rfl⟩, ⟨inv_flush, coherent_flush, _, rfl⟩⟩

/-- A stalled tick; a flush tick; a bubble tick, which completes the LOAD in Execute; a plain normal advance, which
completes an ADD; and a LOAD that forms a misaligned address. -/
theorem witness_TicksFollowTheInstructionLevel :
    (Inv stalledState ∧ Coherent stalledState ∧ NoStoreBaseHazard stalledState ∧
      ∃ t, step stalledState = .next t ∧ t.canAdvance = false) ∧
    (Inv flushState ∧ Coherent flushState ∧ NoStoreBaseHazard flushState ∧
      ∃ t, step flushState = .next t ∧ flushState.memTaken = true) ∧
    (Inv bubbleState ∧ Coherent bubbleState ∧ NoStoreBaseHazard bubbleState ∧
      ∃ t, step bubbleState = .next t ∧ t.canAdvance = true ∧ bubbleState.memTaken = false) ∧
    (Inv normalState ∧ Coherent normalState ∧ NoStoreBaseHazard normalState ∧
      ∃ t, step normalState = .next t ∧ t.canAdvance = true ∧ normalState.memTaken = false) ∧
    (Inv misalignedState ∧ Coherent misalignedState ∧ NoStoreBaseHazard misalignedState ∧
      archExec misalignedState.cfg misalignedState.slotE.cmd (archAt misalignedState) =
        .refused .misalignedDataAddress ∧
      ∃ t, step misalignedState = .next t ∧ t.canAdvance = true ∧ misalignedState.memTaken = false) :=
  ⟨⟨inv_stalled, coherent_stalled, fun h => (nomatch h.2.1), _, rfl, rfl⟩,
    ⟨inv_flush, coherent_flush, fun h => (nomatch h.1), _, rfl, rfl⟩,
    ⟨inv_bubble, coherent_bubble, fun h => (nomatch h.1), _, rfl, rfl, rfl⟩,
    ⟨inv_normal, coherent_normal, fun h => (nomatch h.1), _, rfl, rfl, rfl⟩,
    ⟨inv_misaligned, coherent_misaligned, fun h => (nomatch h.1), rfl, _, rfl, rfl, rfl⟩⟩

/-- `LOAD r1 <- [r2 + #0]` alone (falls through) and `BR r7` alone at 0 with `x[7] = 0x40` (taken). -/
def loneLoad : State := State.reset.withFetchWord 32 0x38220000
def loneBranch : State := writeReg 7 0x40 (State.reset.withFetchWord 32 0x50E00000)

theorem witness_LoneInstructionCompletesInFiveTicks :
    (∃ m, Inv loneLoad ∧ Drained loneLoad ∧
      archExec loneLoad.cfg loneLoad.slotF.cmd { pc := loneLoad.pc, regs := loneLoad.regs, dmem := loneLoad.dmem } =
        .next m ∧ NopsFrom loneLoad (loneLoad.pc + 4) 5 ∧ NopsFrom loneLoad m.pc 2 ∧
      ready loneLoad (loneLoad.tick + 4) = true) ∧
    (∃ m, Inv loneBranch ∧ Drained loneBranch ∧
      archExec loneBranch.cfg loneBranch.slotF.cmd
        { pc := loneBranch.pc, regs := loneBranch.regs, dmem := loneBranch.dmem } = .next m ∧
      NopsFrom loneBranch (loneBranch.pc + 4) 5 ∧ NopsFrom loneBranch m.pc 2 ∧ m.pc = 0x40 ∧
      ready loneBranch (loneBranch.tick + 4) = true) :=
  ⟨⟨_, ⟨rfl, rfl, fun h => (nomatch h), fun h _ => (nomatch h), rfl, rfl, fun h => (nomatch h),
        ⟨0, .inl ⟨rfl, rfl, .inl ⟨rfl, rfl, rfl⟩⟩⟩, rfl, rfl, rfl, rfl⟩,
      ⟨rfl, rfl, rfl, rfl, rfl, rfl, rfl⟩, rfl, ⟨rfl, rfl, rfl, rfl, rfl, trivial⟩, ⟨rfl, rfl, trivial⟩, rfl⟩,
    ⟨_, ⟨rfl, rfl, fun h => (nomatch h), fun h _ => (nomatch h), rfl, rfl, fun h => (nomatch h),
        ⟨0, .inl ⟨rfl, rfl, .inl ⟨rfl, rfl, rfl⟩⟩⟩, rfl, rfl, rfl, rfl⟩,
      ⟨rfl, rfl, rfl, rfl, rfl, rfl, rfl⟩, rfl, ⟨rfl, rfl, rfl, rfl, rfl, trivial⟩, ⟨rfl, rfl, trivial⟩, rfl, rfl⟩⟩

/-- The same address and a different one, at both ends of the address space. -/
theorem witness_WordReadAfterWordWritten : Memory.wf storeState.dmem = true ∧ aligned (0 : Word) = true ∧
    aligned (0xFFFFFFFC : Word) = true ∧ (0 : Word) ≠ 0xFFFFFFFC := by decide

theorem witness_CanonicalMemoryIsItsContents : Memory.wf loadState.dmem = true ∧
    Memory.wf (writeWord (writeWord [] 0x44 1) 0x44 0) = true ∧ aligned (0xFFFFFFFC : Word) = true ∧
    (∀ a, readByte (writeWord (writeWord [] 0x44 1) 0x44 0) a = readByte [] a) :=
  ⟨by decide, by decide, by decide, fun _ => rfl⟩

/-- A Command, a record that is none, and a word that is none at the entry. -/
theorem witness_ResetDiscardsEverythingInFlight :
    (ifetch stalledState stalledState.cfg.entryPc = .next .emptyNop ∧ ∃ t, coreReset stalledState = .next t) ∧
    ifetch (placeRecord 0 ⟨9, 0, 0, 0, false, 0⟩ stalledState) stalledState.cfg.entryPc = .fault .unknownOpcode ∧
    ifetch (placeWord 0 0x14000000 stalledState) stalledState.cfg.entryPc = .refused .reservedEncoding :=
  ⟨⟨rfl, _, rfl⟩, rfl, rfl⟩

/-- Two states with one snapshot that differ in hidden state (the stall's flags), and two with different snapshots. -/
theorem witness_SnapshotShowsExactlyTheMachineState :
    loadState.cfg.nregs = stalledState.cfg.nregs ∧ getState loadState = getState stalledState ∧
      loadState ≠ stalledState ∧ getState loadState ≠ getState bubbleState :=
  ⟨rfl, rfl, fun h => (nomatch congrArg State.canAdvance h), by decide⟩

/-! ### Witnesses over a program -/

theorem witness_StoreBehindLoadCompletesWithTheOldBase : Inv storeBaseState ∧ Coherent storeBaseState ∧
    (∃ t, step storeBaseState = .next t ∧ t.canAdvance = true) ∧ storeBaseState.slotM.cmd.opcode = .load ∧
    storeBaseState.slotE.cmd.opcode = .store ∧
    storeBaseState.slotE.cmd.dstIndex = storeBaseState.slotM.cmd.dstIndex :=
  ⟨inv_storeBase, coherent_storeBase, ⟨_, rfl, rfl⟩, rfl, rfl, rfl⟩

theorem agrees_stalled : Agrees stalledState (archOf stalledState 0) :=
  ⟨rfl, rfl, .inl ⟨rfl, rfl, .inl ⟨rfl, rfl, rfl⟩⟩⟩
theorem agrees_flush : Agrees flushState (archOf flushState 8) := ⟨rfl, rfl, rfl⟩
theorem agrees_normal : Agrees normalState (archOf normalState 0) :=
  ⟨rfl, rfl, .inr ⟨rfl, rfl, .inr ⟨rfl, rfl, rfl⟩⟩⟩
theorem agrees_misaligned : Agrees misalignedState (archOf misalignedState 0) :=
  ⟨rfl, rfl, .inr ⟨rfl, rfl, .inr ⟨rfl, rfl, rfl⟩⟩⟩

/-- A stalled tick; a flush tick; an instruction completed; an instruction that both levels refuse. -/
theorem witness_EveryTickIsOneInstructionOrNone :
    (Inv stalledState ∧ Coherent stalledState ∧ NoStoreBaseHazard stalledState ∧
      Agrees stalledState (archOf stalledState 0) ∧ ∃ t, step stalledState = .next t ∧ t.canAdvance = false) ∧
    (Inv flushState ∧ Coherent flushState ∧ NoStoreBaseHazard flushState ∧ Agrees flushState (archOf flushState 8) ∧
      ∃ t, step flushState = .next t ∧ flushState.memTaken = true) ∧
    (Inv normalState ∧ Coherent normalState ∧ NoStoreBaseHazard normalState ∧
      Agrees normalState (archOf normalState 0) ∧
      ∃ t, step normalState = .next t ∧ t.canAdvance = true ∧ normalState.memTaken = false) ∧
    (Inv misalignedState ∧ Coherent misalignedState ∧ NoStoreBaseHazard misalignedState ∧
      Agrees misalignedState (archOf misalignedState 0) ∧
      archStep misalignedState (archOf misalignedState 0) = .refused .misalignedDataAddress ∧
      ∃ t, step misalignedState = .next t ∧ t.canAdvance = true ∧ misalignedState.memTaken = false) :=
  ⟨⟨inv_stalled, coherent_stalled, fun h => (nomatch h.2.1), agrees_stalled, _, rfl, rfl⟩,
    ⟨inv_flush, coherent_flush, fun h => (nomatch h.1), agrees_flush, _, rfl, rfl⟩,
    ⟨inv_normal, coherent_normal, fun h => (nomatch h.1), agrees_normal, _, rfl, rfl, rfl⟩,
    ⟨inv_misaligned, coherent_misaligned, fun h => (nomatch h.1), agrees_misaligned, rfl, _, rfl, rfl, rfl⟩⟩

/-- One tick of the run, and the LOAD whose address is misaligned. -/
theorem witness_RunsFollowTheInstructionLevel :
    (Inv normalState ∧ Coherent normalState ∧ Agrees normalState (archOf normalState 0) ∧
      (∀ j u, j < 1 → RunsTo j normalState u → NoStoreBaseHazard u) ∧ ∃ t, RunsTo 1 normalState t) ∧
    (Inv misalignedState ∧ Coherent misalignedState ∧ Agrees misalignedState (archOf misalignedState 0) ∧
      (∀ j u, j < 1 → RunsTo j misalignedState u → NoStoreBaseHazard u) ∧ ∃ t, RunsTo 1 misalignedState t) := by
  refine ⟨⟨inv_normal, coherent_normal, agrees_normal, fun j u hj h => ?_, _, _, rfl, rfl⟩,
    ⟨inv_misaligned, coherent_misaligned, agrees_misaligned, fun j u hj h => ?_, _, _, rfl, rfl⟩⟩ <;>
  · obtain rfl : j = 0 := by omega
    cases h
    exact fun h => (nomatch h.1)

end Sys2Proof.Tests
end

section
/-! SUPPORT. What a tick leaves in the state, said once and in terms of the state it began with: the operand values and
the latches that its compute steps give the occupants of Execute and Decode, and the four kinds of tick. -/

namespace Sys2Proof.Machine

/-! ### The occupants of Execute and Decode after the compute steps -/

/-- An operand of the occupant of Execute after the compute steps of a tick: forwarded (R221, R223), and kept as it is
in a retry tick, which computes nothing there (R253). -/
def operandAt (s : State) (idx : RegIdx) (old : Word) : Word := if s.canAdvance then forward s idx old else old

/-- The occupant of Execute after the compute steps of a tick (R223, R225). -/
def executeSlot (s : State) : Slot :=
  { s.slotE with
    src1Val := operandAt s s.slotE.cmd.src1Index s.slotE.src1Val
    src2Val := if s.slotE.cmd.isSrc2Immediate then s.slotE.src2Val
      else operandAt s s.slotE.cmd.src2Index s.slotE.src2Val
    dstVal := if readsDst s.slotE.cmd.opcode then operandAt s s.slotE.cmd.dstIndex s.slotE.dstVal
      else s.slotE.dstVal }

/-- The occupant of Decode after the compute steps of a tick: resolved from the registers Write-Back left (R183, R191),
and kept as it is in a retry tick. -/
def decodeSlot (s : State) : Slot :=
  if s.canAdvance then
    { s.slotD with
      src1Val := readReg (retiredState s) s.slotD.cmd.src1Index
      src2Val := if s.slotD.cmd.isSrc2Immediate then s.slotD.cmd.immediateValue
        else readReg (retiredState s) s.slotD.cmd.src2Index
      dstVal := readReg (retiredState s) s.slotD.cmd.dstIndex }
  else s.slotD

/-- `EXres` after the compute steps of a tick (R185, R253). -/
def exResAt (s : State) : Word :=
  if s.canAdvance then
    exResultOf s.slotE.cmd.opcode (executeSlot s).src1Val (executeSlot s).src2Val (executeSlot s).dstVal
  else s.exRes

/-- `EXtaken` after the compute steps of a tick (R185, R253). -/
def exTakenAt (s : State) : Bool :=
  if s.canAdvance then exTakenOf s.slotE.cmd.opcode (executeSlot s).src1Val (executeSlot s).src2Val else s.exTaken

/-- `EXtarget` after the compute steps of a tick (R185, R253). -/
def exTargetAt (s : State) : Word :=
  if s.canAdvance then
    exTargetOf s.slotE.cmd.opcode (executeSlot s).dstVal s.slotE.ipc s.cfg.branchBaseOffset
  else s.exTarget

section Occupants
variable (s : State)

@[simp] theorem executeSlot_cmd : (executeSlot s).cmd = s.slotE.cmd := rfl
@[simp] theorem executeSlot_ipc : (executeSlot s).ipc = s.slotE.ipc := rfl
@[simp] theorem decodeSlot_cmd : (decodeSlot s).cmd = s.slotD.cmd := by unfold decodeSlot; split <;> rfl
@[simp] theorem decodeSlot_ipc : (decodeSlot s).ipc = s.slotD.ipc := by unfold decodeSlot; split <;> rfl

end Occupants

theorem operandAt_of_stalled {s : State} (h : s.canAdvance = false) (idx : RegIdx) (old : Word) :
    operandAt s idx old = old := by simp [operandAt, h]

theorem executeSlot_of_stalled {s : State} (h : s.canAdvance = false) : executeSlot s = s.slotE := by
  simp [executeSlot, operandAt_of_stalled h]

theorem decodeSlot_of_stalled {s : State} (h : s.canAdvance = false) : decodeSlot s = s.slotD := by
  simp [decodeSlot, h]

/-- A register is read as the register file holds it. -/
theorem readReg_congr {s t : State} (h : t.regs = s.regs) (r : RegIdx) : readReg t r = readReg s r := by
  simp only [readReg, h]

/-- The Forwarding Unit reads the occupants of Memory and Write-Back and their latches only (R220). -/
theorem forward_congr {s u : State} (hm : u.slotM = s.slotM) (hw : u.slotW = s.slotW) (hr : u.memRes = s.memRes)
    (hv : u.wbVal = s.wbVal) (idx : RegIdx) (old : Word) : forward u idx old = forward s idx old := by
  simp only [forward, hm, hw, hr, hv]

namespace MemoryDone
variable {s u : State} (m : MemoryDone s u)
include m

theorem forward_eq (h : s.canAdvance = true) (idx : RegIdx) (old : Word) : forward u idx old = operandAt s idx old := by
  rw [operandAt, if_pos h]
  exact forward_congr m.slotM (by rw [m.slotW, if_pos h]) m.memRes m.wbVal idx old

theorem slotE_patched (h : s.canAdvance = true) :
    (patched u.slotE.cmd (atStage .execute u)).slotE = executeSlot s := by
  have hf : ∀ idx old, forward (atStage .execute u) idx old = operandAt s idx old := m.forward_eq h
  simp only [patched, patchOperands, setExecuteVals_slotE, atStage_slotE, hf, m.slotE, executeSlot]

theorem beforeFinish_slotE : (beforeFinish s u).slotE = executeSlot s := by
  cases h : s.canAdvance
  · simp [beforeFinish, h, executeSlot_of_stalled h, m.slotE]
  · rw [← m.slotE_patched h]
    simp [beforeFinish, h, computed, decoded, executed, resolveOperands]

theorem beforeFinish_slotD : (beforeFinish s u).slotD = decodeSlot s := by
  cases h : s.canAdvance
  · simp [beforeFinish, h, decodeSlot, m.slotD]
  · have hr : ∀ r, readReg (atStage .decode (executed u)) r = readReg (retiredState s) r := fun r =>
      readReg_congr (by simp [executed, patched, patchOperands, m.regs]) r
    have hd : (executed u).slotD = s.slotD := by simp [executed, patched, patchOperands, m.slotD]
    simp [beforeFinish, h, computed, decoded, resolveOperands, decodeSlot, hr, hd]

theorem beforeFinish_exRes : (beforeFinish s u).exRes = exResAt s := by
  cases h : s.canAdvance
  · simp [beforeFinish, h, exResAt, m.exRes]
  · rw [exResAt, if_pos h, ← m.slotE_patched h]
    simp [beforeFinish, h, computed, decoded, executed, resolveOperands, m.slotE]

theorem beforeFinish_exTaken : (beforeFinish s u).exTaken = exTakenAt s := by
  cases h : s.canAdvance
  · simp [beforeFinish, h, exTakenAt, m.exTaken]
  · rw [exTakenAt, if_pos h, ← m.slotE_patched h]
    simp [beforeFinish, h, computed, decoded, executed, resolveOperands, m.slotE]

theorem beforeFinish_exTarget : (beforeFinish s u).exTarget = exTargetAt s := by
  cases h : s.canAdvance
  · simp [beforeFinish, h, exTargetAt, m.exTarget]
  · rw [exTargetAt, if_pos h, ← m.slotE_patched h]
    simp [beforeFinish, h, computed, decoded, executed, resolveOperands, m.slotE, m.cfg]

end MemoryDone

/-! ### The four kinds of tick -/

/-- The value the occupant of Memory takes into Write-Back in the tick that completes its Memory step (R186, R259). -/
def memResult (s : State) : Word := if s.slotM.cmd.opcode = .load then readWord s.dmem s.memRes else s.memRes

/-- The port call of Memory compute (R186, R187). -/
def memoryCalls (s : State) : List PortCall :=
  if s.slotM.cmd.opcode = .load then
    [.dread s.memRes (if ready s (s.tick + 1) then some (readWord s.dmem s.memRes) else none)]
  else if s.slotM.cmd.opcode = .store then [.dwrite s.memRes s.slotM.src1Val]
  else []

/-- What every tick does, however it ends. -/
structure TickFrame (s t : State) : Prop where
  cfg : t.cfg = s.cfg
  imem : t.imem = s.imem
  irec : t.irec = s.irec
  readyDefault : t.readyDefault = s.readyDefault
  readyExcept : t.readyExcept = s.readyExcept
  tick : t.tick = s.tick + 1
  stage : t.stage = .fetch
  regs : t.regs = (retiredState s).regs
  dmem : t.dmem = completedDmem s
  addressAligned : s.slotM.cmd.opcode = .load ∨ s.slotM.cmd.opcode = .store → aligned s.memRes = true

/-- A stalled tick (R254, R264). -/
structure StalledTick (s t : State) : Prop where
  load : s.slotM.cmd.opcode = .load
  notReady : ready s (s.tick + 1) = false
  canAdvance : t.canAdvance = false
  pc : t.pc = s.pc
  slotF : t.slotF = s.slotF
  slotD : t.slotD = decodeSlot s
  slotE : t.slotE = executeSlot s
  slotM : t.slotM = s.slotM
  slotW : t.slotW = if s.canAdvance then s.slotW else Slot.empty
  exRes : t.exRes = exResAt s
  exTaken : t.exTaken = exTakenAt s
  exTarget : t.exTarget = exTargetAt s
  memRes : t.memRes = s.memRes
  memTaken : t.memTaken = s.memTaken
  memTarget : t.memTarget = s.memTarget
  memLoad : t.memLoad = s.memLoad
  wbVal : t.wbVal = s.wbVal
  hazardPending : t.hazardPending = s.hazardPending
  calls : t.calls = memoryCalls s

/-- What every advance does: the occupant of Memory moves to Write-Back with its value (R259). -/
structure AdvancedTick (s t : State) : Prop where
  readyIfLoad : s.slotM.cmd.opcode = .load → ready s (s.tick + 1) = true
  canAdvance : t.canAdvance = true
  slotW : t.slotW = s.slotM
  wbVal : t.wbVal = memResult s
  memLoad : t.memLoad = if s.slotM.cmd.opcode = .load then readWord s.dmem s.memRes else s.memLoad

/-- What every advance without a flush does: the occupant of Execute moves to Memory with its latches (R256, R259). -/
structure MovedOn (s t : State) : Prop extends AdvancedTick s t where
  notTaken : s.memTaken = false
  slotM : t.slotM = executeSlot s
  memRes : t.memRes = exResAt s
  memTaken : t.memTaken = exTakenAt s
  memTarget : t.memTarget = exTargetAt s

/-- A bubble tick (R256). -/
structure BubbleTick (s t : State) : Prop extends MovedOn s t where
  pending : s.hazardPending = true
  pc : t.pc = s.pc
  slotF : t.slotF = s.slotF
  slotD : t.slotD = decodeSlot s
  slotE : t.slotE = Slot.empty
  exRes : t.exRes = 0
  exTaken : t.exTaken = false
  exTarget : t.exTarget = 0
  hazardPending : t.hazardPending = false
  calls : t.calls = memoryCalls s

/-- A normal tick without a flush (R259 to R262). -/
structure ShiftTick (s t : State) : Prop extends MovedOn s t where
  notPending : s.hazardPending = false
  pc : t.pc = s.pc + 4
  fetched : ifetch s (s.pc + 4) = .next t.slotF.cmd
  slotF : t.slotF = Slot.fetched t.slotF.cmd (s.pc + 4)
  slotD : t.slotD = s.slotF
  slotE : t.slotE = decodeSlot s
  hazardPending : t.hazardPending = hazardBetween s.slotD.cmd s.slotF.cmd
  calls : t.calls = memoryCalls s ++ [.ifetch (s.pc + 4)]

/-- A flush tick (R165, R257, R258). -/
structure FlushTick (s t : State) : Prop extends AdvancedTick s t where
  taken : s.memTaken = true
  pc : t.pc = s.memTarget
  fetched : ifetch s s.memTarget = .next t.slotF.cmd
  slotF : t.slotF = Slot.fetched t.slotF.cmd s.memTarget
  slotD : t.slotD = Slot.empty
  slotE : t.slotE = Slot.empty
  slotM : t.slotM = Slot.empty
  memRes : t.memRes = 0
  memTaken : t.memTaken = false
  memTarget : t.memTarget = 0
  hazardPending : t.hazardPending = false
  calls : t.calls = memoryCalls s ++ [.ifetch s.memTarget]

/-- The four kinds of tick. -/
inductive TickKind (s t : State) : Prop
  | stalled (h : StalledTick s t)
  | bubble (h : BubbleTick s t)
  | shift (h : ShiftTick s t)
  | flush (h : FlushTick s t)

theorem hazardBetween_emptyNop_left (d : Instr) : hazardBetween .emptyNop d = false := rfl

theorem hazardBetween_emptyNop_right (e : Instr) : hazardBetween e .emptyNop = false := by
  simp [hazardBetween, readsSources, isBranch]

/-- The end of a tick whose normal advance, from the state `v` before it, fetched the Command `c` at `a` (R259 to
R262). -/
def fetchedInto (v : State) (c : Instr) (a : Word) : State :=
  atStage .fetch (recomputeHazard (noteCall (.ifetch a) (setSlotF (Slot.fetched c a) (advanceSlots v))))

section FetchedInto
variable (v : State) (c : Instr) (a : Word)

@[simp] theorem fetchedInto_cfg : (fetchedInto v c a).cfg = v.cfg := by simp [fetchedInto, recomputeHazard]
@[simp] theorem fetchedInto_imem : (fetchedInto v c a).imem = v.imem := by simp [fetchedInto, recomputeHazard]
@[simp] theorem fetchedInto_irec : (fetchedInto v c a).irec = v.irec := by simp [fetchedInto, recomputeHazard]
@[simp] theorem fetchedInto_dmem : (fetchedInto v c a).dmem = v.dmem := by simp [fetchedInto, recomputeHazard]
@[simp] theorem fetchedInto_readyDefault : (fetchedInto v c a).readyDefault = v.readyDefault := by
  simp [fetchedInto, recomputeHazard]
@[simp] theorem fetchedInto_readyExcept : (fetchedInto v c a).readyExcept = v.readyExcept := by
  simp [fetchedInto, recomputeHazard]
@[simp] theorem fetchedInto_tick : (fetchedInto v c a).tick = v.tick := by simp [fetchedInto, recomputeHazard]
@[simp] theorem fetchedInto_stage : (fetchedInto v c a).stage = .fetch := rfl
@[simp] theorem fetchedInto_regs : (fetchedInto v c a).regs = v.regs := by simp [fetchedInto, recomputeHazard]
@[simp] theorem fetchedInto_pc : (fetchedInto v c a).pc = nextPc v := rfl
@[simp] theorem fetchedInto_canAdvance : (fetchedInto v c a).canAdvance = v.canAdvance := by
  simp [fetchedInto, recomputeHazard]
@[simp] theorem fetchedInto_slotF : (fetchedInto v c a).slotF = Slot.fetched c a := rfl
@[simp] theorem fetchedInto_slotD : (fetchedInto v c a).slotD = if v.memTaken then Slot.empty else v.slotF := by
  simp [fetchedInto, recomputeHazard]
@[simp] theorem fetchedInto_slotE : (fetchedInto v c a).slotE = if v.memTaken then Slot.empty else v.slotD := by
  simp [fetchedInto, recomputeHazard]
@[simp] theorem fetchedInto_slotM : (fetchedInto v c a).slotM = if v.memTaken then Slot.empty else v.slotE := by
  simp [fetchedInto, recomputeHazard]
@[simp] theorem fetchedInto_slotW : (fetchedInto v c a).slotW = v.slotM := by simp [fetchedInto, recomputeHazard]
@[simp] theorem fetchedInto_memRes : (fetchedInto v c a).memRes = if v.memTaken then 0 else v.exRes := by
  simp [fetchedInto, recomputeHazard]
@[simp] theorem fetchedInto_memTaken : (fetchedInto v c a).memTaken = if v.memTaken then false else v.exTaken := by
  simp [fetchedInto, recomputeHazard]
@[simp] theorem fetchedInto_memTarget : (fetchedInto v c a).memTarget = if v.memTaken then 0 else v.exTarget := by
  simp [fetchedInto, recomputeHazard]
@[simp] theorem fetchedInto_memLoad : (fetchedInto v c a).memLoad = v.memLoad := by
  simp [fetchedInto, recomputeHazard]
@[simp] theorem fetchedInto_wbVal : (fetchedInto v c a).wbVal = writeBackValue v := by
  simp [fetchedInto, recomputeHazard]
@[simp] theorem fetchedInto_calls : (fetchedInto v c a).calls = v.calls ++ [.ifetch a] := by
  simp [fetchedInto, recomputeHazard]
@[simp] theorem fetchedInto_hazardPending : (fetchedInto v c a).hazardPending =
    hazardBetween (fetchedInto v c a).slotE.cmd (fetchedInto v c a).slotD.cmd := rfl

end FetchedInto

namespace MemoryDone
variable {s u : State} (m : MemoryDone s u)
include m

theorem calls_eq : u.calls = memoryCalls s := m.calls

/-- Memory compute advances iff no read is left unanswered (R28). -/
theorem canAdvance_iff : u.canAdvance = true ↔ (s.slotM.cmd.opcode = .load → ready s (s.tick + 1) = true) := by
  rw [m.canAdvance]
  by_cases hl : s.slotM.cmd.opcode = .load <;> simp [hl]

theorem writeBackValue_eq (h : u.canAdvance = true) : writeBackValue (beforeFinish s u) = memResult s := by
  have hr := m.canAdvance_iff.1 h
  by_cases hl : s.slotM.cmd.opcode = .load
  · simp [writeBackValue, memResult, m.slotM, m.memLoad, hl, hr hl]
  · simp [writeBackValue, memResult, m.slotM, m.memRes, hl]

/-- An advance that moves the occupant of Memory to Write-Back as it is. -/
theorem advancedTick {t : State} (h : u.canAdvance = true) (hc : t.canAdvance = u.canAdvance) (hw : t.slotW = u.slotM)
    (hv : t.wbVal = writeBackValue (beforeFinish s u)) (hl : t.memLoad = u.memLoad) : AdvancedTick s t where
  readyIfLoad := m.canAdvance_iff.1 h
  canAdvance := hc.trans h
  slotW := hw.trans m.slotM
  wbVal := hv.trans (m.writeBackValue_eq h)
  memLoad := by
    have hr := m.canAdvance_iff.1 h
    rw [hl, m.memLoad]
    by_cases hl : s.slotM.cmd.opcode = .load <;> simp [hl, hr]

theorem stalledTick (h : u.canAdvance = false) : StalledTick s (atStage .fetch (beforeFinish s u)) := by
  have hs := m.canAdvance
  simp only [h, Bool.false_eq, Bool.not_eq_false', Bool.and_eq_true, beq_iff_eq, Bool.not_eq_true'] at hs
  obtain ⟨hl, hr⟩ := hs
  constructor <;>
    simp [hl, hr, h, m.pc, m.slotF, m.slotM, m.slotW, m.memRes, m.memTaken, m.memTarget, m.memLoad, m.wbVal,
      m.hazardPending, m.calls_eq, m.beforeFinish_slotE, m.beforeFinish_slotD, m.beforeFinish_exRes,
      m.beforeFinish_exTaken, m.beforeFinish_exTarget]

/-- The bubble advance (R256). -/
theorem bubbleTick (h : u.canAdvance = true) (hp : s.hazardPending = true) (ht : s.memTaken = false) :
    BubbleTick s (atStage .fetch (bubbleAdvance (beforeFinish s u))) where
  toAdvancedTick := m.advancedTick h (by simp [bubbleAdvance]) (by simp [bubbleAdvance]) (by simp [bubbleAdvance])
    (by simp [bubbleAdvance])
  notTaken := ht
  slotM := by simp [bubbleAdvance, m.beforeFinish_slotE]
  memRes := by simp [bubbleAdvance, m.beforeFinish_exRes]
  memTaken := by simp [bubbleAdvance, m.beforeFinish_exTaken]
  memTarget := by simp [bubbleAdvance, m.beforeFinish_exTarget]
  pending := hp
  pc := by simp [bubbleAdvance, m.pc]
  slotF := by simp [bubbleAdvance, m.slotF]
  slotD := by simp [bubbleAdvance, m.beforeFinish_slotD]
  slotE := by simp [bubbleAdvance]
  exRes := by simp [bubbleAdvance]
  exTaken := by simp [bubbleAdvance]
  exTarget := by simp [bubbleAdvance]
  hazardPending := by simp [bubbleAdvance]
  calls := by simp [bubbleAdvance, m.calls_eq]

theorem advancedTick_fetchedInto (h : u.canAdvance = true) (c : Instr) (a : Word) :
    AdvancedTick s (fetchedInto (beforeFinish s u) c a) :=
  m.advancedTick h (by simp) (by simp) (by simp) (by simp)

theorem nextPc_beforeFinish : nextPc (beforeFinish s u) = nextPc s := by
  simp [nextPc, m.memTaken, m.memTarget, m.pc]

/-- The normal advance without a flush (R259 to R262). -/
theorem shiftTick (h : u.canAdvance = true) (hp : s.hazardPending = false) (ht : s.memTaken = false) {c : Instr}
    (hc : ifetch s (nextPc s) = .next c) : ShiftTick s (fetchedInto (beforeFinish s u) c (nextPc s)) := by
  have hu : u.memTaken = false := m.memTaken.trans ht
  have hn : nextPc s = s.pc + 4 := by simp [nextPc, ht]
  rw [hn] at hc ⊢
  exact {
    toAdvancedTick := m.advancedTick_fetchedInto h c _
    notTaken := ht
    slotM := by simp [hu, m.beforeFinish_slotE]
    memRes := by simp [hu, m.beforeFinish_exRes]
    memTaken := by simp [hu, m.beforeFinish_exTaken]
    memTarget := by simp [hu, m.beforeFinish_exTarget]
    notPending := hp
    pc := by simp [m.nextPc_beforeFinish, hn]
    fetched := hc
    slotF := rfl
    slotD := by simp [hu, m.slotF]
    slotE := by simp [hu, m.beforeFinish_slotD]
    hazardPending := by simp [hu, m.slotD, m.slotF]
    calls := by simp [m.calls_eq] }

/-- The normal advance with a flush (R257, R258). -/
theorem flushTick (h : u.canAdvance = true) (ht : s.memTaken = true) {c : Instr}
    (hc : ifetch s (nextPc s) = .next c) : FlushTick s (fetchedInto (beforeFinish s u) c (nextPc s)) := by
  have hu : u.memTaken = true := m.memTaken.trans ht
  have hn : nextPc s = s.memTarget := by simp [nextPc, ht]
  rw [hn] at hc ⊢
  exact {
    toAdvancedTick := m.advancedTick_fetchedInto h c _
    taken := ht
    pc := by simp [m.nextPc_beforeFinish, hn]
    fetched := hc
    slotF := rfl
    slotD := by simp [hu]
    slotE := by simp [hu]
    slotM := by simp [hu]
    memRes := by simp [hu]
    memTaken := by simp [hu]
    memTarget := by simp [hu]
    hazardPending := by simp [hu, hazardBetween_emptyNop_left]
    calls := by simp [m.calls_eq] }

/-- The part of a tick that does not depend on how it ends. -/
theorem tickFrame {t : State} (hc : t.cfg = u.cfg) (hi : t.imem = u.imem) (hr : t.irec = u.irec)
    (hd : t.readyDefault = u.readyDefault) (he : t.readyExcept = u.readyExcept) (hk : t.tick = u.tick)
    (hs : t.stage = .fetch) (hg : t.regs = u.regs) (hm : t.dmem = u.dmem) : TickFrame s t where
  cfg := hc.trans m.cfg
  imem := hi.trans m.imem
  irec := hr.trans m.irec
  readyDefault := hd.trans m.readyDefault
  readyExcept := he.trans m.readyExcept
  tick := hk.trans m.tick
  stage := hs
  regs := hg.trans m.regs
  dmem := hm.trans m.dmem
  addressAligned := m.addressAligned

end MemoryDone

/-- A tick that goes on is of one of four kinds, and each keeps the frame. -/
theorem step_kinds {s t : State} (h : step s = .next t) : TickFrame s t ∧ TickKind s t := by
  obtain ⟨u, m, ⟨ha, rfl⟩ | ⟨ha, hp, ht, rfl⟩ | ⟨ha, hn, c, hc, rfl⟩⟩ := step_ends h
  · exact ⟨by apply m.tickFrame <;> simp, .stalled (m.stalledTick ha)⟩
  · exact ⟨by apply m.tickFrame <;> simp [bubbleAdvance], .bubble (m.bubbleTick ha hp ht)⟩
  · rw [← fetchedInto]
    refine ⟨by apply m.tickFrame <;> simp, ?_⟩
    cases ht : s.memTaken
    · exact .shift (m.shiftTick ha (by simpa [ht] using hn) ht hc)
    · exact .flush (m.flushTick ha ht hc)

end Sys2Proof.Machine
end

section
/-! SUPPORT. How the two levels meet at the occupant of Execute: its operands are the instruction level's, the
instruction level is R185's tables, and what a tick completes. -/

namespace Sys2Proof.Machine

/-! ### Registers once the older occupants have completed -/

/-- What Write-Back compute leaves in a register (R190). -/
theorem readReg_retiredState (s : State) (r : RegIdx) : readReg (retiredState s) r =
    if writesRegister s.slotW.cmd.opcode = true ∧ s.slotW.cmd.dstIndex = r then s.wbVal else readReg s r := by
  simp only [readReg, retiredState_regs]
  by_cases hw : writesRegister s.slotW.cmd.opcode = true
  · simp only [hw, if_true, true_and]
    exact regs_set_get _ _ _ _
  · simp [hw]

/-- In a retry tick Write-Back's value is in the register file already (R264). -/
theorem retiredState_regs_of_stalled {s : State} (hc : Coherent s) (h : s.canAdvance = false) :
    (retiredState s).regs = s.regs := by
  rw [retiredState_regs]
  split
  · exact regs_set_same _ _ _ (hc.stalledWrite h ‹_›)
  · rfl

/-- Memory's pending write comes after Write-Back's. -/
theorem completedRegs_eq (s : State) : completedRegs s =
    if writesRegister s.slotM.cmd.opcode then
      (retiredState s).regs.set s.slotM.cmd.dstIndex.toNat (memResult s) s.slotM.cmd.dstIndex.isLt
    else (retiredState s).regs := by
  rw [retiredState_regs]; rfl

theorem archReg_archAt (s : State) (r : RegIdx) : archReg (archAt s) r =
    if writesRegister s.slotM.cmd.opcode = true ∧ s.slotM.cmd.dstIndex = r then memResult s
    else readReg (retiredState s) r := by
  simp only [archReg, archAt, completedRegs_eq, readReg]
  by_cases hw : writesRegister s.slotM.cmd.opcode = true
  · simp only [hw, if_true, true_and]
    exact regs_set_get _ _ _ _
  · simp [hw]

/-! ### The operands of the occupant of Execute -/

/-- ADD, SUB and LOAD write a register; the first two are tier 1's (R221). -/
theorem writesRegister_iff (op : Opcode) : writesRegister op = true ↔ tier1Writer op = true ∨ op = .load := by
  cases op <;> decide

/-- A LOAD in Memory is about to write the register `idx`: its value cannot be forwarded (R224). -/
def LoadAhead (s : State) (idx : RegIdx) : Prop := s.slotM.cmd.opcode = .load ∧ s.slotM.cmd.dstIndex = idx

/-- A register operand of Execute: tier 1's value, else the register as Write-Back leaves it, forwarded or in the
register file since a stall began (R221, R225, R264). -/
theorem operandAt_readReg {s : State} (hi : Inv s) (hc : Coherent s) (idx : RegIdx) :
    operandAt s idx (readReg s idx) =
      if tier1Writer s.slotM.cmd.opcode = true ∧ s.slotM.cmd.dstIndex = idx then s.memRes
      else readReg (retiredState s) idx := by
  cases h : s.canAdvance
  · rw [operandAt_of_stalled h, hi.stallHasLoad h, readReg_congr (retiredState_regs_of_stalled hc h)]
    simp [tier1Writer]
  · simp [operandAt, h, forward, readReg_retiredState]

theorem operandAt_of_load {s : State} (hi : Inv s) (hc : Coherent s) (hl : s.slotM.cmd.opcode = .load)
    (idx : RegIdx) : operandAt s idx (readReg s idx) = readReg (retiredState s) idx := by
  rw [operandAt_readReg hi hc, hl]
  simp [tier1Writer]

/-- With no LOAD of the register directly ahead, the operand is the instruction level's. -/
theorem operandAt_eq_archReg {s : State} (hi : Inv s) (hc : Coherent s) {idx : RegIdx} (h : ¬LoadAhead s idx) :
    operandAt s idx (readReg s idx) = archReg (archAt s) idx := by
  rw [operandAt_readReg hi hc, archReg_archAt, memResult]
  by_cases hl : s.slotM.cmd.opcode = .load
  · have hd : s.slotM.cmd.dstIndex ≠ idx := fun hd => h ⟨hl, hd⟩
    simp [hd]
  · simp [writesRegister_iff, hl]

namespace Coherent
variable {s : State} (hc : Coherent s)
include hc

theorem executeSlot_src1Val (hn : s.slotE.cmd.opcode ≠ .nop) :
    (executeSlot s).src1Val = operandAt s s.slotE.cmd.src1Index (readReg s s.slotE.cmd.src1Index) := by
  rw [← hc.src1 hn]; rfl

theorem executeSlot_src2Val (hn : s.slotE.cmd.opcode ≠ .nop) :
    (executeSlot s).src2Val = if s.slotE.cmd.isSrc2Immediate then s.slotE.cmd.immediateValue
      else operandAt s s.slotE.cmd.src2Index (readReg s s.slotE.cmd.src2Index) := by
  have h2 := hc.src2 hn
  simp only [executeSlot]
  split <;> simp_all

theorem executeSlot_dstVal (hd : readsDst s.slotE.cmd.opcode = true) :
    (executeSlot s).dstVal = operandAt s s.slotE.cmd.dstIndex (readReg s s.slotE.cmd.dstIndex) := by
  rw [← hc.dst hd]; simp [executeSlot, hd]

/-- The EX latches are R185's in a retry tick too (R264). -/
theorem exResAt_eq : exResAt s =
    exResultOf s.slotE.cmd.opcode (executeSlot s).src1Val (executeSlot s).src2Val (executeSlot s).dstVal := by
  cases h : s.canAdvance
  · simp [exResAt, h, executeSlot_of_stalled h, hc.stalledRes h]
  · simp [exResAt, h]

theorem exTakenAt_eq : exTakenAt s =
    exTakenOf s.slotE.cmd.opcode (executeSlot s).src1Val (executeSlot s).src2Val := by
  cases h : s.canAdvance
  · simp [exTakenAt, h, executeSlot_of_stalled h, hc.stalledTaken h]
  · simp [exTakenAt, h]

theorem exTargetAt_eq : exTargetAt s =
    exTargetOf s.slotE.cmd.opcode (executeSlot s).dstVal s.slotE.ipc s.cfg.branchBaseOffset := by
  cases h : s.canAdvance
  · simp [exTargetAt, h, executeSlot_of_stalled h, hc.stalledTarget h]
  · simp [exTargetAt, h]

end Coherent

/-! ### What the hazard predicate keeps apart -/

theorem ne_nop_of_readsSources {op : Opcode} (h : readsSources op = true) : op ≠ .nop := by
  rintro rfl; cases h

theorem readsDst_iff (op : Opcode) : readsDst op = true ↔ isBranch op = true ∨ op = .store := by
  cases op <;> decide

/-- A pair the predicate clears: no source of the reader, no destination of a branch is the LOAD's register (R230). -/
theorem hazardBetween_eq_false {e d : Instr} (h : hazardBetween e d = false) (he : e.opcode = .load) :
    (readsSources d.opcode = true → e.dstIndex ≠ d.src1Index) ∧
    (readsSources d.opcode = true → d.isSrc2Immediate = false → e.dstIndex ≠ d.src2Index) ∧
    (isBranch d.opcode = true → e.dstIndex ≠ d.dstIndex) := by
  simp only [hazardBetween, he, beq_self_eq_true, Bool.true_and, Bool.or_eq_false_iff, Bool.and_eq_false_imp,
    beq_eq_false_iff_ne, Bool.not_eq_true'] at h
  obtain ⟨hsrc, hdst⟩ := h
  exact ⟨fun hr => (hsrc hr).1.symm, fun hr hm => ((hsrc hr).2 hm).symm, fun hb => (hdst hb).symm⟩

section Operands
variable {s : State} (hi : Inv s) (hc : Coherent s)
include hi hc

theorem executeSlot_src1Val_eq_archReg (hr : readsSources s.slotE.cmd.opcode = true) :
    (executeSlot s).src1Val = archReg (archAt s) s.slotE.cmd.src1Index := by
  rw [hc.executeSlot_src1Val (ne_nop_of_readsSources hr)]
  exact operandAt_eq_archReg hi hc fun ⟨hl, hd⟩ => (hazardBetween_eq_false hi.loadUseSeparated hl).1 hr hd

theorem executeSlot_src2Val_eq_archOp2 (hr : readsSources s.slotE.cmd.opcode = true) :
    (executeSlot s).src2Val = archOp2 (archAt s) s.slotE.cmd := by
  rw [hc.executeSlot_src2Val (ne_nop_of_readsSources hr), archOp2]
  cases hm : s.slotE.cmd.isSrc2Immediate
  · exact operandAt_eq_archReg hi hc fun ⟨hl, hd⟩ => (hazardBetween_eq_false hi.loadUseSeparated hl).2.1 hr hm hd
  · rfl

/-- The base of a STORE is the one operand the predicate does not cover (R232, R326). -/
theorem executeSlot_dstVal_eq_archReg (hn : NoStoreBaseHazard s) (hr : readsDst s.slotE.cmd.opcode = true) :
    (executeSlot s).dstVal = archReg (archAt s) s.slotE.cmd.dstIndex := by
  rw [hc.executeSlot_dstVal hr]
  refine operandAt_eq_archReg hi hc fun ⟨hl, hd⟩ => ?_
  rcases (readsDst_iff _).1 hr with hb | hs
  · exact (hazardBetween_eq_false hi.loadUseSeparated hl).2.2 hb hd
  · exact hn ⟨hl, hs, hd.symm⟩

end Operands

/-! ### The instruction level by R185's tables -/

/-- The result or address that R185's table gives at the instruction level. -/
def archResult (m : Arch) (i : Instr) : Word :=
  exResultOf i.opcode (archReg m i.src1Index) (archOp2 m i) (archReg m i.dstIndex)

theorem archTaken_eq (m : Arch) (i : Instr) :
    archTaken m i = exTakenOf i.opcode (archReg m i.src1Index) (archOp2 m i) := by
  unfold archTaken exTakenOf; cases i.opcode <;> rfl

theorem exTakenOf_isBranch {op : Opcode} {a b : Word} (h : exTakenOf op a b = true) : isBranch op = true := by
  revert h; cases op <;> simp [exTakenOf, isBranch]

theorem archNext_of_not_branch (cfg : Config) (m : Arch) {i : Instr} (h : isBranch i.opcode = false) :
    archNext cfg m i = m.pc + 4 := by
  have ht : archTaken m i = false := by
    rw [archTaken_eq]
    exact Bool.eq_false_iff.2 fun ht => by simp [exTakenOf_isBranch ht] at h
  simp [archNext, ht]

/-- A misaligned LOAD or STORE is refused at the instruction level (R65, D13). -/
theorem archExec_eq_refused (cfg : Config) {m : Arch} {i : Instr} (h : i.opcode = .load ∨ i.opcode = .store)
    (ha : aligned (archResult m i) = false) : archExec cfg i m = .refused .misalignedDataAddress := by
  rcases h with h | h <;> simp [archResult, exResultOf, h] at ha <;> simp [archExec, h, ha]

/-- Any other instruction goes on: next address, register write and memory write by opcode (R120 to R165). -/
theorem archExec_eq_next (cfg : Config) {m : Arch} {i : Instr}
    (ha : i.opcode = .load ∨ i.opcode = .store → aligned (archResult m i) = true) :
    archExec cfg i m = .next
      { pc := archNext cfg m i
        regs := if writesRegister i.opcode then
            m.regs.set i.dstIndex.toNat (if i.opcode = .load then readWord m.dmem (archResult m i) else archResult m i)
              i.dstIndex.isLt
          else m.regs
        dmem := if i.opcode = .store then writeWord m.dmem (archResult m i) (archReg m i.src1Index) else m.dmem } := by
  have hn := archNext_of_not_branch cfg m (i := i)
  cases h : i.opcode <;> simp [archResult, exResultOf, h, isBranch] at ha hn <;>
    simp [archExec, archWrite, archResult, exResultOf, writesRegister, h, ha, hn]

section Latches
variable {s : State} (hi : Inv s) (hc : Coherent s)
include hi hc

theorem exResAt_eq_archResult (hn : NoStoreBaseHazard s) : exResAt s = archResult (archAt s) s.slotE.cmd := by
  have h1 := executeSlot_src1Val_eq_archReg hi hc
  have h2 := executeSlot_src2Val_eq_archOp2 hi hc
  have hd := executeSlot_dstVal_eq_archReg hi hc hn
  rw [hc.exResAt_eq, archResult]
  cases h : s.slotE.cmd.opcode <;> simp [h, readsSources, readsDst, isBranch] at h1 h2 hd <;>
    simp [exResultOf, h1, h2, hd]

theorem exTakenAt_eq_archTaken : exTakenAt s = archTaken (archAt s) s.slotE.cmd := by
  have h1 := executeSlot_src1Val_eq_archReg hi hc
  have h2 := executeSlot_src2Val_eq_archOp2 hi hc
  rw [hc.exTakenAt_eq, archTaken_eq]
  cases h : s.slotE.cmd.opcode <;> simp [h, readsSources] at h1 h2 <;> simp [exTakenOf, h1, h2]

theorem exTargetAt_eq_archTarget (hn : NoStoreBaseHazard s) (hb : isBranch s.slotE.cmd.opcode = true) :
    exTargetAt s = archTarget s.cfg (archAt s) s.slotE.cmd := by
  rw [hc.exTargetAt_eq, executeSlot_dstVal_eq_archReg hi hc hn ((readsDst_iff _).2 (.inl hb)), exTargetOf, if_pos hb]
  rfl

/-- The redirect Execute latches is the instruction level's next address (R163, R165). -/
theorem archNext_archAt (hn : NoStoreBaseHazard s) : archNext s.cfg (archAt s) s.slotE.cmd =
    if exTakenAt s then exTargetAt s else s.slotE.ipc + 4 := by
  rw [archNext, ← exTakenAt_eq_archTaken hi hc]
  cases ht : exTakenAt s
  · rfl
  · rw [exTargetAt_eq_archTarget hi hc hn (exTakenOf_isBranch (hc.exTakenAt_eq ▸ ht))]
    rfl

end Latches

/-! ### What a tick completes -/

/-- After a stalled tick the register file is the same once Write-Back has completed. -/
theorem StalledTick.keeps_retiredRegs {s t : State} (k : StalledTick s t) (f : TickFrame s t) :
    (retiredState t).regs = (retiredState s).regs := by
  have hw := k.slotW
  cases h : s.canAdvance <;> simp only [h, Bool.false_eq_true, if_false, if_true] at hw
  · rw [retiredState_regs t, hw, f.regs]; rfl
  · simp only [retiredState_regs, f.regs, hw, k.wbVal]
    split <;> simp

theorem StalledTick.keeps_completedDmem {s t : State} (k : StalledTick s t) (f : TickFrame s t) :
    completedDmem t = completedDmem s := by
  simp only [completedDmem, k.slotM, k.load, f.dmem, reduceCtorEq, if_false]

theorem StalledTick.keeps_completedRegs {s t : State} (k : StalledTick s t) (f : TickFrame s t) :
    completedRegs t = completedRegs s := by
  have hd : t.dmem = s.dmem := by simp [f.dmem, completedDmem, k.load]
  simp only [completedRegs_eq, k.keeps_retiredRegs f, memResult, k.slotM, hd, k.memRes]

/-- After an advance the register file is what the occupants of Write-Back and Memory leave. -/
theorem AdvancedTick.retires_completedRegs {s t : State} (k : AdvancedTick s t) (f : TickFrame s t) :
    (retiredState t).regs = completedRegs s := by
  rw [retiredState_regs, completedRegs_eq, f.regs, k.slotW, k.wbVal]

theorem FlushTick.keeps_completedRegs {s t : State} (k : FlushTick s t) (f : TickFrame s t) :
    completedRegs t = completedRegs s := by
  rw [completedRegs_eq t, k.retires_completedRegs f, k.slotM]; rfl

theorem FlushTick.keeps_completedDmem {s t : State} (k : FlushTick s t) (f : TickFrame s t) :
    completedDmem t = completedDmem s := by
  rw [completedDmem, k.slotM, f.dmem]; rfl

/-- The occupant of Execute, moved into Memory, completes its register write next (R190, R259). -/
theorem MovedOn.completes_register {s t : State} (k : MovedOn s t) (f : TickFrame s t) : completedRegs t =
    if writesRegister s.slotE.cmd.opcode then
      (completedRegs s).set s.slotE.cmd.dstIndex.toNat
        (if s.slotE.cmd.opcode = .load then readWord (completedDmem s) (exResAt s) else exResAt s)
        s.slotE.cmd.dstIndex.isLt
    else completedRegs s := by
  simp only [completedRegs_eq t, k.retires_completedRegs f, memResult, k.slotM, executeSlot_cmd, k.memRes, f.dmem]

/-- And its memory write (R187). -/
theorem MovedOn.completes_memory {s t : State} (k : MovedOn s t) (f : TickFrame s t) : completedDmem t =
    if s.slotE.cmd.opcode = .store then
      writeWord (completedDmem s) (exResAt s) (executeSlot s).src1Val
    else completedDmem s := by
  simp only [completedDmem, k.slotM, executeSlot_cmd, k.memRes, f.dmem]

end Sys2Proof.Machine
end

section
/-! SUPPORT. What every tick keeps: the path of addresses through the pipeline, the invariants of R269, and the operand
values of Execute. -/

namespace Sys2Proof.Machine

/-! ### The path of addresses -/

theorem TickFrame.ifetch_eq {s t : State} (f : TickFrame s t) (a : Word) : ifetch t a = ifetch s a :=
  ifetch_congr a f.cfg f.imem f.irec

/-- A taken flag that Execute latches belongs to a branch (R269 4). -/
theorem exTakenAt_isBranch {s : State} (hi : Inv s) (h : exTakenAt s = true) : isBranch s.slotE.cmd.opcode = true := by
  unfold exTakenAt at h
  split at h
  · exact exTakenOf_isBranch h
  · exact hi.stallKeepsEx (by simpa using ‹¬s.canAdvance = true›) h

/-- A tick that leaves the stall on is a stalled tick. -/
theorem TickKind.stalledTick {s t : State} (k : TickKind s t) (ha : t.canAdvance = false) : StalledTick s t := by
  cases k with
  | stalled k => exact k
  | bubble k => exact absurd (k.canAdvance.symm.trans ha) (by decide)
  | shift k => exact absurd (k.canAdvance.symm.trans ha) (by decide)
  | flush k => exact absurd (k.canAdvance.symm.trans ha) (by decide)

/-- A tick that advances and was no flush moved Execute on. -/
theorem TickKind.movedOn {s t : State} (k : TickKind s t) (ha : t.canAdvance = true) (ht : s.memTaken = false) :
    MovedOn s t := by
  cases k with
  | stalled k => exact absurd (k.canAdvance.symm.trans ha) (by decide)
  | bubble k => exact k.toMovedOn
  | shift k => exact k.toMovedOn
  | flush k => exact absurd (k.taken.symm.trans ht) (by decide)

/-- A stalled tick leaves the path where it is. -/
theorem StalledTick.nextAddress {s t : State} (k : StalledTick s t) (f : TickFrame s t) (p : Word) :
    NextAddress t p ↔ NextAddress s p := by
  simp [NextAddress, k.memTaken, k.memTarget, k.slotF, k.slotE, k.slotD, f.ifetch_eq]

/-- A flush tick fetches where the path begins. -/
theorem FlushTick.nextAddress {s t : State} (k : FlushTick s t) {p : Word} (h : NextAddress s p) : NextAddress t p := by
  rw [nextAddress_of_taken k.taken] at h
  rw [nextAddress_of_not_taken k.memTaken, k.slotE, k.slotD]
  refine onPath_of_empty t p ?_
  rw [k.slotF, fetched_ipc, h]

/-- What was behind Execute is the path from Execute on: Decode and Fetch moved up and the next address was fetched, or
a bubble went in ahead of Decode (R256, R259, R261). -/
theorem TickKind.onPath {s t : State} (k : TickKind s t) (f : TickFrame s t) (hi : Inv s) (ha : t.canAdvance = true)
    (ht : s.memTaken = false) {p : Word} (h : OnPath s p [s.slotD]) : OnPath t p [t.slotE, t.slotD] := by
  cases k with
  | stalled k => exact absurd (k.canAdvance.symm.trans ha) (by decide)
  | flush k => exact absurd (k.taken.symm.trans ht) (by decide)
  | bubble k =>
    rw [k.slotE, onPath_cons]
    refine .inl ⟨rfl, rfl, ?_⟩
    simpa [k.slotD, k.slotF, f.ifetch_eq] using h
  | shift k =>
    have hF : ∀ q, s.slotF.ipc = q → OnPath t q [t.slotD] := by
      rintro q rfl
      rw [onPath_cons, k.slotD, f.ifetch_eq]
      refine .inr ⟨rfl, hi.pcIsFetchAddress ▸ hi.fetchedIsMemory, ?_⟩
      rw [onPath_nil, k.slotF, fetched_ipc, hi.pcIsFetchAddress]
    rw [onPath_cons, k.slotE, decodeSlot_cmd, decodeSlot_ipc, f.ifetch_eq]
    exact h.imp (fun ⟨hc, hp, hn⟩ => ⟨hc, hp, hF _ hn⟩) fun ⟨hp, hc, hn⟩ => ⟨hp, hc, hF _ hn⟩

/-- An advance without a flush moved either a bubble on, or the instruction at the address the path began with, and the
path goes on from its redirect or behind it (R165, R269). -/
theorem TickKind.nextAddress {s t : State} (k : TickKind s t) (f : TickFrame s t) (hi : Inv s)
    (ha : t.canAdvance = true) (ht : s.memTaken = false) {p : Word} (h : NextAddress s p) :
    (s.slotE.cmd = .emptyNop ∧ s.slotE.ipc = 0 ∧ NextAddress t p) ∨
    (s.slotE.ipc = p ∧ ifetch s p = .next s.slotE.cmd ∧
      NextAddress t (if t.memTaken then t.memTarget else p + 4)) := by
  have hm := (k.movedOn ha ht).memTaken
  rw [nextAddress_of_not_taken ht, onPath_cons] at h
  rcases h with ⟨hc, hp, hn⟩ | ⟨hp, hc, hn⟩
  · have hnt : t.memTaken = false := by
      rw [hm]
      exact Bool.eq_false_iff.2 fun h => absurd (exTakenAt_isBranch hi h) (by simp [hc, isBranch])
    exact .inl ⟨hc, hp, (nextAddress_of_not_taken hnt p).2 (k.onPath f hi ha ht hn)⟩
  · refine .inr ⟨hp, hc, ?_⟩
    cases hnt : t.memTaken
    · exact (nextAddress_of_not_taken hnt _).2 (k.onPath f hi ha ht hn)
    · exact (nextAddress_of_taken hnt _).2 rfl

/-! ### Indices below `NREGS` -/

theorem record_check_indicesBelow {n : Nat} {r : Record} {i : Instr} (h : r.check n = .ok i) :
    i.indicesBelow n = true := by
  unfold Record.check at h
  split at h
  · cases h
  · split at h <;> cases h
    rename_i hb
    obtain ⟨hd, h1, h2, hd', h1', h2'⟩ := hb
    simp [Instr.indicesBelow, Instr.dstIndex, Instr.src1Index, Instr.src2Index, Nat.mod_eq_of_lt, *]

/-- Every Command the fetch port hands over names registers below `NREGS` (R91, R182). -/
theorem ifetch_indicesBelow {s : State} {a : Word} {i : Instr} (h : ifetch s a = .next i) :
    i.indicesBelow s.cfg.nregs = true := by
  unfold ifetch commandAt at h
  split at h
  · split at h
    · split at h
      · cases h
        exact record_check_indicesBelow ‹_›
      · rename_i e _
        cases e <;> cases h
    · split at h
      · cases h
        obtain ⟨_, _, _, hb, _⟩ := (decode_eq_ok _ _ _).1 ‹_›
        exact hb
      · rename_i e _
        cases e <;> cases h
  · cases h

theorem emptyNop_indicesBelow {c : Config} (h : c.wf = true) : Instr.emptyNop.indicesBelow c.nregs = true := by
  simp only [Config.wf, Bool.and_eq_true, decide_eq_true_eq] at h
  simp [Instr.indicesBelow]
  omega

theorem slotsBelow_iff (s : State) : slotsBelow s = true ↔
    s.slotF.cmd.indicesBelow s.cfg.nregs = true ∧ s.slotD.cmd.indicesBelow s.cfg.nregs = true ∧
      s.slotE.cmd.indicesBelow s.cfg.nregs = true ∧ s.slotM.cmd.indicesBelow s.cfg.nregs = true ∧
      s.slotW.cmd.indicesBelow s.cfg.nregs = true := by
  simp [slotsBelow, and_assoc]

theorem TickKind.slotsBelow {s t : State} (k : TickKind s t) (f : TickFrame s t) (hi : Inv s) :
    slotsBelow t = true := by
  obtain ⟨hF, hD, hE, hM, hW⟩ := (slotsBelow_iff s).1 hi.indicesLegal
  have h0 := emptyNop_indicesBelow hi.parametersLegal
  rw [slotsBelow_iff, f.cfg]
  cases k with
  | stalled k =>
    rw [k.slotF, k.slotD, k.slotE, k.slotM, k.slotW]
    refine ⟨hF, by simpa using hD, hE, hM, ?_⟩
    split
    · exact hW
    · exact h0
  | bubble k =>
    rw [k.slotF, k.slotD, k.slotE, k.slotM, k.slotW]
    exact ⟨hF, by simpa using hD, h0, hE, hM⟩
  | shift k =>
    rw [k.slotD, k.slotE, k.slotM, k.slotW]
    exact ⟨ifetch_indicesBelow k.fetched, hF, by simpa using hD, hE, hM⟩
  | flush k =>
    rw [k.slotD, k.slotE, k.slotM, k.slotW]
    exact ⟨ifetch_indicesBelow k.fetched, h0, h0, h0, hM⟩

/-! ### Every tick keeps the invariants -/

theorem wf_completedDmem {s : State} (hw : Memory.wf s.dmem = true)
    (ha : s.slotM.cmd.opcode = .load ∨ s.slotM.cmd.opcode = .store → aligned s.memRes = true) :
    Memory.wf (completedDmem s) = true := by
  unfold completedDmem
  split
  · exact wf_writeWord hw (ha (.inr ‹_›))
  · exact hw

theorem TickKind.addressesFollow {s t : State} (k : TickKind s t) (f : TickFrame s t) (hi : Inv s) :
    ∃ p, NextAddress t p := by
  obtain ⟨p, hp⟩ := hi.addressesFollow
  have moved (ha : t.canAdvance = true) (ht : s.memTaken = false) : ∃ p, NextAddress t p :=
    (k.nextAddress f hi ha ht hp).elim (fun ⟨_, _, h⟩ => ⟨_, h⟩) fun ⟨_, _, h⟩ => ⟨_, h⟩
  cases k with
  | stalled k => exact ⟨p, (k.nextAddress f p).2 hp⟩
  | bubble k => exact moved k.canAdvance k.notTaken
  | shift k => exact moved k.canAdvance k.notTaken
  | flush k => exact ⟨p, k.nextAddress hp⟩

namespace TickKind
variable {s t : State} (k : TickKind s t) (hi : Inv s)
include k hi

/-- `slot[F]` stays with `pc` or is fetched with the new `pc` (R256, R261, R264). -/
theorem fetchedAtPc : t.pc = t.slotF.ipc ∧ ifetch s t.pc = .next t.slotF.cmd := by
  cases k with
  | stalled k => rw [k.pc, k.slotF]; exact ⟨hi.pcIsFetchAddress, hi.fetchedIsMemory⟩
  | bubble k => rw [k.pc, k.slotF]; exact ⟨hi.pcIsFetchAddress, hi.fetchedIsMemory⟩
  | shift k => rw [k.pc]; exact ⟨(congrArg Slot.ipc k.slotF).symm, k.fetched⟩
  | flush k => rw [k.pc]; exact ⟨(congrArg Slot.ipc k.slotF).symm, k.fetched⟩

/-- The flag is the predicate: recomputed, cleared with a bubble or the flushed slots in Execute, or kept (R262). -/
theorem pendingIsPredicate : t.hazardPending = hazardBetween t.slotE.cmd t.slotD.cmd := by
  cases k with
  | stalled k => simp [k.hazardPending, k.slotE, k.slotD, hi.pendingIsPredicate]
  | bubble k => simp [k.hazardPending, k.slotE, hazardBetween_emptyNop_left]
  | shift k => simp [k.hazardPending, k.slotE, k.slotD]
  | flush k => simp [k.hazardPending, k.slotE, hazardBetween_emptyNop_left]

/-- A pair the predicate covers never moves on together: the tick that would do it is a bubble (R145, R227, R255). -/
theorem loadUseSeparated : hazardBetween t.slotM.cmd t.slotE.cmd = false := by
  cases k with
  | stalled k => rw [k.slotM, k.slotE, executeSlot_cmd, hi.loadUseSeparated]
  | bubble k => rw [k.slotE]; exact hazardBetween_emptyNop_right _
  | shift k => rw [k.slotM, k.slotE, executeSlot_cmd, decodeSlot_cmd, ← hi.pendingIsPredicate, k.notPending]
  | flush k => rw [k.slotE]; exact hazardBetween_emptyNop_right _

theorem takenIsBranch (h : t.memTaken = true) : isBranch t.slotM.cmd.opcode = true := by
  cases k with
  | stalled k => rw [k.slotM]; exact hi.takenIsBranch (k.memTaken ▸ h)
  | bubble k => rw [k.slotM]; exact exTakenAt_isBranch hi (k.memTaken ▸ h)
  | shift k => rw [k.slotM]; exact exTakenAt_isBranch hi (k.memTaken ▸ h)
  | flush k => exact absurd (k.memTaken.symm.trans h) (by decide)

end TickKind

/-- Every tick keeps the invariants of R269. -/
theorem step_keeps_inv {s t : State} (hi : Inv s) (h : step s = .next t) : Inv t := by
  obtain ⟨f, k⟩ := step_kinds h
  obtain ⟨hpc, hfetched⟩ := k.fetchedAtPc hi
  exact {
    pcIsFetchAddress := hpc
    fetchedIsMemory := (f.ifetch_eq _).trans hfetched
    stallHasLoad := fun ha => (k.stalledTick ha).slotM ▸ (k.stalledTick ha).load
    stallKeepsEx := fun ha ht => by
      rw [(k.stalledTick ha).slotE]
      exact exTakenAt_isBranch hi ((k.stalledTick ha).exTaken ▸ ht)
    pendingIsPredicate := k.pendingIsPredicate hi
    loadUseSeparated := k.loadUseSeparated hi
    takenIsBranch := k.takenIsBranch hi
    addressesFollow := k.addressesFollow f hi
    parametersLegal := f.cfg ▸ hi.parametersLegal
    indicesLegal := k.slotsBelow f hi
    dmemCanonical := f.dmem ▸ wf_completedDmem hi.dmemCanonical f.addressAligned
    stageRests := f.stage }

/-! ### Every tick keeps the operand values coherent -/

/-- An occupant of Execute or Decode holds what the register file holds (R183). -/
structure HoldsOperands (s : State) (v : Slot) : Prop where
  src1 : v.src1Val = readReg s v.cmd.src1Index
  src2 : v.src2Val = if v.cmd.isSrc2Immediate then v.cmd.immediateValue else readReg s v.cmd.src2Index
  dst : v.dstVal = readReg s v.cmd.dstIndex

theorem TickFrame.readReg_eq {s t : State} (f : TickFrame s t) (r : RegIdx) :
    readReg t r = readReg (retiredState s) r := readReg_congr f.regs r

/-- Decode compute, or the stall that kept its values, leaves the operands of the register file (R191, R264). -/
theorem decodeSlot_holdsOperands {s t : State} (hc : Coherent s) (f : TickFrame s t) :
    HoldsOperands t (decodeSlot s) := by
  cases h : s.canAdvance
  · obtain ⟨h1, h2, h3⟩ := hc.stalledDecode h
    have hr : ∀ r, readReg t r = readReg s r :=
      readReg_congr (f.regs.trans (retiredState_regs_of_stalled hc h))
    rw [decodeSlot_of_stalled h]
    exact ⟨by rw [hr, h1], by rw [hr, h2], by rw [hr, h3]⟩
  · constructor <;> simp [decodeSlot, h, f.readReg_eq]

theorem readsDst_nop : readsDst .nop = false := rfl

/-- After an advance the operands of Execute alone are to be held, and those of a bubble are not read. -/
theorem coherent_of_advanced {t : State} (ha : t.canAdvance = true)
    (h : t.slotE.cmd.opcode ≠ .nop → HoldsOperands t t.slotE) : Coherent t where
  src1 hn := (h hn).src1
  src2 hn := (h hn).src2
  dst hd := (h fun hn => by simp [hn, readsDst_nop] at hd).dst
  stalledDecode h := absurd (ha.symm.trans h) (by decide)
  stalledRes h := absurd (ha.symm.trans h) (by decide)
  stalledTaken h := absurd (ha.symm.trans h) (by decide)
  stalledTarget h := absurd (ha.symm.trans h) (by decide)
  stalledWrite h := absurd (ha.symm.trans h) (by decide)

/-- A stalled tick forwards Write-Back's value into Execute and writes it to the register file (R225, R228). -/
theorem StalledTick.coherent {s t : State} (hi : Inv s) (hc : Coherent s) (f : TickFrame s t) (k : StalledTick s t) :
    Coherent t where
  src1 hn := by
    rw [k.slotE] at hn ⊢
    rw [hc.executeSlot_src1Val hn, operandAt_of_load hi hc k.load, f.readReg_eq, executeSlot_cmd]
  src2 hn := by
    rw [k.slotE] at hn ⊢
    rw [hc.executeSlot_src2Val hn, operandAt_of_load hi hc k.load, f.readReg_eq, executeSlot_cmd]
  dst hd := by
    rw [k.slotE] at hd ⊢
    rw [hc.executeSlot_dstVal hd, operandAt_of_load hi hc k.load, f.readReg_eq, executeSlot_cmd]
  stalledDecode _ := by
    obtain ⟨h1, h2, h3⟩ := decodeSlot_holdsOperands hc f
    rw [k.slotD]
    exact ⟨h1, h2, h3⟩
  stalledRes _ := by rw [k.exRes, k.slotE, hc.exResAt_eq, executeSlot_cmd]
  stalledTaken _ := by rw [k.exTaken, k.slotE, hc.exTakenAt_eq, executeSlot_cmd]
  stalledTarget _ := by rw [k.exTarget, k.slotE, hc.exTargetAt_eq, executeSlot_cmd, executeSlot_ipc, f.cfg]
  stalledWrite _ hw := by
    have hW := k.slotW
    cases h : s.canAdvance <;> simp only [h, Bool.false_eq_true, if_false, if_true] at hW <;> rw [hW] at hw ⊢
    · cases hw
    · rw [f.readReg_eq, readReg_retiredState, if_pos ⟨hw, rfl⟩, k.wbVal]

/-- Every tick keeps the operand values of Execute those of the register file. -/
theorem step_keeps_coherent {s t : State} (hi : Inv s) (hc : Coherent s) (h : step s = .next t) : Coherent t := by
  obtain ⟨f, k⟩ := step_kinds h
  cases k with
  | stalled k => exact k.coherent hi hc f
  | bubble k => exact coherent_of_advanced k.canAdvance fun hn => absurd (k.slotE ▸ emptyNop_opcode) hn
  | shift k => exact coherent_of_advanced k.canAdvance fun _ => k.slotE ▸ decodeSlot_holdsOperands hc f
  | flush k => exact coherent_of_advanced k.canAdvance fun hn => absurd (k.slotE ▸ emptyNop_opcode) hn

end Sys2Proof.Machine
end

section
/-! SUPPORT. The two levels agree: one tick (`TicksFollowTheInstructionLevel`), one tick over the program in memory
(`EveryTickIsOneInstructionOrNone`) and any number of ticks (`RunsFollowTheInstructionLevel`). -/

namespace Sys2Proof.Machine

/-! ### What a tick completes -/

/-- A tick that is stalled or a flush completes nothing. -/
theorem TickKind.completes_nothing {s t : State} (k : TickKind s t) (f : TickFrame s t)
    (h : t.canAdvance = false ∨ s.memTaken = true) :
    completedRegs t = completedRegs s ∧ completedDmem t = completedDmem s := by
  cases k with
  | stalled k => exact ⟨k.keeps_completedRegs f, k.keeps_completedDmem f⟩
  | flush k => exact ⟨k.keeps_completedRegs f, k.keeps_completedDmem f⟩
  | bubble k => simp [k.canAdvance, k.notTaken] at h
  | shift k => simp [k.canAdvance, k.notTaken] at h

/-- The instruction-level state with the registers and data memory a tick completes and the address its latches
redirect to. -/
def archAfter (s t : State) : Arch :=
  { pc := if t.memTaken then t.memTarget else s.slotE.ipc + 4, regs := completedRegs t, dmem := completedDmem t }

/-- An advance without a flush completes the occupant of Execute as the instruction level says, unless its address is
misaligned. -/
theorem MovedOn.archExec_eq {s t : State} (k : MovedOn s t) (f : TickFrame s t) (hi : Inv s) (hc : Coherent s)
    (hn : NoStoreBaseHazard s)
    (ha : s.slotE.cmd.opcode = .load ∨ s.slotE.cmd.opcode = .store → aligned t.memRes = true) :
    archExec s.cfg s.slotE.cmd (archAt s) = .next (archAfter s t) := by
  have hr := exResAt_eq_archResult hi hc hn
  have hs (h : s.slotE.cmd.opcode = .store) := executeSlot_src1Val_eq_archReg hi hc (h ▸ rfl)
  rw [archExec_eq_next _ (by rwa [← hr, ← k.memRes]), archNext_archAt hi hc hn, ← hr, archAfter, k.memTaken,
    k.memTarget, k.completes_register f, k.completes_memory f]
  congr 2
  by_cases h : s.slotE.cmd.opcode = .store
  · simp only [h, if_true, hs h]; rfl
  · simp only [h, if_false]; rfl

/-- An advance without a flush completes the occupant of Execute as the instruction level says, or both levels refuse
its misaligned address (R65, D13). -/
theorem MovedOn.archExec_cases {s t : State} (k : MovedOn s t) (f : TickFrame s t) (hi : Inv s) (hc : Coherent s)
    (hn : NoStoreBaseHazard s) :
    (archExec s.cfg s.slotE.cmd (archAt s) = .refused .misalignedDataAddress ∧
      (s.slotE.cmd.opcode = .load ∨ s.slotE.cmd.opcode = .store) ∧ aligned t.memRes = false) ∨
    archExec s.cfg s.slotE.cmd (archAt s) = .next (archAfter s t) := by
  by_cases hbad : (s.slotE.cmd.opcode = .load ∨ s.slotE.cmd.opcode = .store) ∧ aligned t.memRes = false
  · obtain ⟨ho, ha⟩ := hbad
    exact .inl ⟨archExec_eq_refused s.cfg ho (by rwa [← exResAt_eq_archResult hi hc hn, ← k.memRes]), ho, ha⟩
  · exact .inr (k.archExec_eq f hi hc hn fun ho => by simpa using fun ha => hbad ⟨ho, ha⟩)

/-- Settles O43, by the kind of tick. -/
theorem ticksFollowTheInstructionLevel : Obligations.TicksFollowTheInstructionLevel := by
  intro s t hi hc hn h
  obtain ⟨f, k⟩ := step_kinds h
  refine ⟨k.completes_nothing f, fun ha ht => ?_⟩
  rcases (k.movedOn ha ht).archExec_cases f hi hc hn with ⟨hbad, -, hal⟩ | hgo
  · exact .inl ⟨hbad, hal⟩
  · exact .inr ⟨archAfter s t, hgo, rfl, rfl, rfl⟩

/-! ### One tick over the program -/

/-- A misaligned LOAD or STORE in Memory stops the tick (R65, D13). -/
theorem step_eq_refused {s : State} (ho : s.slotM.cmd.opcode = .load ∨ s.slotM.cmd.opcode = .store)
    (ha : aligned s.memRes = false) : step s = .refused .misalignedDataAddress := by
  have hm : memoryOut (beforeMemory s) = .refused .misalignedDataAddress := by
    rcases ho with ho | ho <;> simp [memoryOut, loadAccess, dread, storeAccess, ho, ha]
  rw [step_eq, hm, andThen_refused]

theorem agrees_of_completes {s t : State} {m : Arch} (h : Agrees s m)
    (hc : completedRegs t = completedRegs s ∧ completedDmem t = completedDmem s) (hn : NextAddress t m.pc) :
    Agrees t m :=
  ⟨h.regs.trans hc.1.symm, h.dmem.trans hc.2.symm, hn⟩

/-- A bubble that moves on completes nothing. -/
theorem MovedOn.completes_nothing {s t : State} (k : MovedOn s t) (f : TickFrame s t) (h : s.slotE.cmd = .emptyNop) :
    completedRegs t = completedRegs s ∧ completedDmem t = completedDmem s := by
  rw [k.completes_register f, k.completes_memory f, h]
  exact ⟨rfl, rfl⟩

/-- The instruction in Execute is the instruction level's next, from the very state the pipeline completes to. -/
theorem Agrees.archStep_eq {s : State} {m : Arch} (h : Agrees s m) (hp : s.slotE.ipc = m.pc)
    (hf : ifetch s m.pc = .next s.slotE.cmd) : archStep s m = archExec s.cfg s.slotE.cmd (archAt s) := by
  have hm : m = archAt s := calc
    m = ⟨m.pc, m.regs, m.dmem⟩ := rfl
    _ = archAt s := by rw [← hp, h.regs, h.dmem]; rfl
  rw [archStep, hf, ← hm]

theorem TickKind.agrees_of_none {s t : State} {m : Arch} (k : TickKind s t) (f : TickFrame s t) (h : Agrees s m)
    (hs : t.canAdvance = false ∨ s.memTaken = true) : Agrees t m := by
  refine agrees_of_completes h (k.completes_nothing f hs) ?_
  cases k with
  | stalled k => exact (k.nextAddress f _).2 h.next
  | flush k => exact k.nextAddress h.next
  | bubble k => simp [k.canAdvance, k.notTaken] at hs
  | shift k => simp [k.canAdvance, k.notTaken] at hs

/-- Settles O51, by what the path of addresses has in Execute: a bubble, or the instruction level's next instruction. -/
theorem everyTickIsOneInstructionOrNone : Obligations.EveryTickIsOneInstructionOrNone := by
  intro s t m hi hc hn h hstep
  obtain ⟨f, k⟩ := step_kinds hstep
  refine ⟨k.agrees_of_none f h, fun ha ht => ?_⟩
  have hm := k.movedOn ha ht
  rcases k.nextAddress f hi ha ht h.next with ⟨hcmd, hipc, hnext⟩ | ⟨hipc, hfetch, hnext⟩
  · exact .inl ⟨hcmd, hipc, agrees_of_completes h (hm.completes_nothing f hcmd) hnext⟩
  · rw [h.archStep_eq hipc hfetch]
    rcases hm.archExec_cases f hi hc hn with ⟨hbad, ho, hal⟩ | hgo
    · exact .inr (.inr ⟨hbad, step_eq_refused (by rwa [hm.slotM]) hal⟩)
    · exact .inr (.inl ⟨archAfter s t, hgo, rfl, rfl, by rw [archAfter, hipc]; exact hnext⟩)

/-! ### Any number of ticks -/

theorem TickFrame.archStep_eq {s t : State} (f : TickFrame s t) (m : Arch) : archStep t m = archStep s m := by
  simp only [archStep, f.ifetch_eq, f.cfg]

/-- The program is the same after a tick (R76, D15). -/
theorem TickFrame.archRunsTo_iff {s t : State} (f : TickFrame s t) (k : Nat) :
    ∀ m n, ArchRunsTo t k m n ↔ ArchRunsTo s k m n := by
  induction k with
  | zero => exact fun _ _ => Iff.rfl
  | succ k ih => simp [f.archStep_eq, ih]

/-- One tick is one instruction or none, or both levels refuse the next: `EveryTickIsOneInstructionOrNone` for a tick of
a run. -/
theorem step_archRunsTo {s t : State} {m : Arch} (hi : Inv s) (hc : Coherent s) (hn : NoStoreBaseHazard s)
    (h : Agrees s m) (hstep : step s = .next t) :
    (∃ j n, j ≤ 1 ∧ ArchRunsTo s j m n ∧ Agrees t n) ∨
      (archStep s m = .refused .misalignedDataAddress ∧ step t = .refused .misalignedDataAddress) := by
  obtain ⟨hnone, hone⟩ := everyTickIsOneInstructionOrNone s t m hi hc hn h hstep
  by_cases hs : t.canAdvance = false ∨ s.memTaken = true
  · exact .inl ⟨0, m, by omega, rfl, hnone hs⟩
  · simp only [not_or, Bool.not_eq_false, Bool.not_eq_true] at hs
    rcases hone hs.1 hs.2 with ⟨-, -, hag⟩ | ⟨n, hrun, hag⟩ | hbad
    · exact .inl ⟨0, m, by omega, rfl, hag⟩
    · exact .inl ⟨1, n, le_rfl, ⟨n, hrun, rfl⟩, hag⟩
    · exact .inr hbad

theorem archRunsTo_add {s : State} {j k : Nat} {m n o : Arch} (h : ArchRunsTo s j m n) (h' : ArchRunsTo s k n o) :
    ArchRunsTo s (j + k) m o := by
  induction j generalizing m with
  | zero => cases h; simpa using h'
  | succ j ih =>
    obtain ⟨p, hp, hr⟩ := h
    rw [Nat.add_right_comm]
    exact ⟨p, hp, ih hr⟩

/-- A tick that is refused is the last of its run. -/
theorem runsTo_of_refused {k : Nat} {s t : State} {r : Refusal} (h : step s = .refused r) (hr : RunsTo k s t) :
    t = s := by
  cases k with
  | zero => exact hr
  | succ k =>
    obtain ⟨u, hu, -⟩ := hr
    rw [h] at hu; cases hu

/-- Settles O52, by induction on the number of ticks. -/
theorem runsFollowTheInstructionLevel : Obligations.RunsFollowTheInstructionLevel := by
  intro k
  induction k with
  | zero =>
    rintro s t m - - h - rfl
    exact ⟨0, m, le_rfl, rfl, .inl h⟩
  | succ k ih =>
    rintro s t m hi hc h hsafe ⟨u, hu, hrun⟩
    obtain ⟨f, -⟩ := step_kinds hu
    have hn : NoStoreBaseHazard s := hsafe 0 s (by omega) rfl
    rcases step_archRunsTo hi hc hn h hu with ⟨i, n, hi1, hrun1, hag⟩ | ⟨hbad, hstop⟩
    · obtain ⟨j, o, hj, hrun2, hend⟩ := ih u t n (step_keeps_inv hi hu) (step_keeps_coherent hi hc hu) hag
        (fun j v hj hv => hsafe (j + 1) v (by omega) ⟨u, hu, hv⟩) hrun
      rw [f.archRunsTo_iff] at hrun2
      rw [f.archStep_eq] at hend
      exact ⟨i + j, o, by omega, archRunsTo_add hrun1 hrun2, hend⟩
    · cases runsTo_of_refused hstop hrun
      exact ⟨0, m, by omega, rfl, .inr ⟨hbad, hstop⟩⟩

end Sys2Proof.Machine
end

section
/-! SUPPORT. The state between ticks: what one tick does to `pc`, to the registers and to data memory, by the four
kinds of tick. -/

namespace Sys2Proof.Machine

/-! ### The program counter (R24) -/

@[simp] theorem patched_pc (i : Instr) (s : State) : (patched i s).pc = s.pc := rfl

/-- No compute step changes the program counter: an advance alone does (R258, R260). -/
theorem exec_keeps_pc {i : Instr} {s t : State} (h : exec i s = .next t) : t.pc = s.pc := by
  cases hs : s.stage with
  | fetch => rw [exec_at_fetch i hs] at h; cases h; rfl
  | decode => rw [exec_at_decode i hs] at h; cases h; rfl
  | execute => rw [exec_at_execute i hs] at h; cases h; simp
  | memory =>
    rw [exec_at_memory i hs] at h
    split_ifs at h
    · obtain ⟨-, ⟨-, rfl⟩ | ⟨-, rfl⟩⟩ := loadAccess_eq_next.1 h <;> rfl
    · obtain ⟨-, rfl⟩ := storeAccess_eq_next.1 h; rfl
    · cases h; rfl
  | writeBack =>
    rw [exec_at_writeBack i hs] at h; cases h
    split_ifs <;> rfl

/-- A tick that advances has no unanswered read in Memory (R28). -/
theorem AdvancedTick.not_stalled {s t : State} (k : AdvancedTick s t) :
    ¬(s.slotM.cmd.opcode = .load ∧ ready s (s.tick + 1) = false) := by
  rintro ⟨hl, hr⟩
  rw [k.readyIfLoad hl] at hr; cases hr

/-- The program counter after a tick, a case of R24 for each kind of tick. -/
theorem TickKind.pc_eq {s t : State} (k : TickKind s t) :
    t.pc = (if s.slotM.cmd.opcode = .load ∧ ready s (s.tick + 1) = false then s.pc
      else if s.hazardPending = true ∧ s.memTaken = false then s.pc
      else if s.memTaken = true then s.memTarget
      else s.pc + 4) := by
  cases k with
  | stalled k => rw [if_pos ⟨k.load, k.notReady⟩, k.pc]
  | bubble k => rw [if_neg k.not_stalled, if_pos ⟨k.pending, k.notTaken⟩, k.pc]
  | shift k => rw [if_neg k.not_stalled, k.pc]; simp [k.notPending, k.notTaken]
  | flush k => rw [if_neg k.not_stalled, k.pc]; simp [k.taken]

/-- Memory compute calls the data ports only (R186, R187). -/
theorem ifetch_not_mem_memoryCalls (s : State) (a : Word) : PortCall.ifetch a ∉ memoryCalls s := by
  unfold memoryCalls
  split_ifs <;> simp

/-- An unanswered read makes the tick a stalled one (R254). -/
theorem TickKind.stalledTick_of_notReady {s t : State} (k : TickKind s t)
    (h : s.slotM.cmd.opcode = .load ∧ ready s (s.tick + 1) = false) : StalledTick s t := by
  cases k with
  | stalled k => exact k
  | bubble k => exact absurd h k.not_stalled
  | shift k => exact absurd h k.not_stalled
  | flush k => exact absurd h k.not_stalled

/-- Settles O24, by the kind of the tick; the compute steps by their stage. -/
theorem pcAfterOneTick : Obligations.PcAfterOneTick := by
  refine ⟨fun s t h => ?_, fun i s t => exec_keeps_pc⟩
  obtain ⟨-, k⟩ := step_kinds h
  refine ⟨k.pc_eq, fun hr => ?_⟩
  have hs := k.stalledTick_of_notReady hr
  exact ⟨hs.slotF, fun a => hs.calls ▸ ifetch_not_mem_memoryCalls s a⟩

/-! ### The registers and data memory -/

/-- The word just written is read back (R68). -/
theorem readWord_writeWord_same {m : List Host.Cell} {a v : Word} (h : Memory.wf m = true) (ha : aligned a = true) :
    readWord (writeWord m a v) a = v := by
  simp [readWord, readByte_writeWord h ha, wordOfBytes_byteOfWord]

/-- Settles O33: the registers are those after Write-Back compute, data memory is that after Memory compute. -/
theorem oneTickWritesOneRegisterAndOneWord : Obligations.OneTickWritesOneRegisterAndOneWord := by
  intro s t h
  obtain ⟨f, -⟩ := step_kinds h
  refine ⟨f.regs.trans (retiredState_regs s), fun hn => ?_, fun ho hw => ?_⟩
  · rw [f.dmem, completedDmem, if_neg hn]
  · have ha := f.addressAligned (.inr ho)
    rw [f.dmem, completedDmem, if_pos ho]
    exact ⟨readWord_writeWord_same hw ha, fun b hb => (readByte_writeWord hw ha b).trans (if_neg hb)⟩

end Sys2Proof.Machine
end

section
/-! SUPPORT. The entry points `reset()` and `getState()`: the state a reset leaves, and when two snapshots are equal. -/

namespace Sys2Proof.Machine

/-! ### `reset()` -/

/-- The state `reset()` leaves when the Command `c` stands at `ENTRY_PC` (R37, R320). -/
def startState (s : State) (c : Instr) : State :=
  noteCall (.ifetch s.cfg.entryPc) (setSlotF (Slot.fetched c s.cfg.entryPc) (zeroCore s))

/-- The instruction memory `reset()` fetches from is the one before it (R38). -/
theorem ifetch_zeroCore (s : State) (a : Word) : ifetch (zeroCore s) a = ifetch s a := ifetch_congr a rfl rfl rfl

theorem zeroCore_pc (s : State) : (zeroCore s).pc = s.cfg.entryPc := rfl

theorem fetch_of_fault {s : State} {r : Fault} (h : ifetch s s.pc = .fault r) : fetch s = .fault r := by
  simp only [fetch, h]

theorem fetch_of_refused {s : State} {r : Refusal} (h : ifetch s s.pc = .refused r) : fetch s = .refused r := by
  simp only [fetch, h]

/-- `reset()` goes on iff its one fetch does (R320). -/
theorem coreReset_eq_next {s t : State} :
    coreReset s = .next t ↔ ∃ c, ifetch s s.cfg.entryPc = .next c ∧ t = startState s c := by
  simp only [coreReset, fetch_eq_next, zeroCore_pc, ifetch_zeroCore, startState]

@[simp] theorem readReg_startState (s : State) (c : Instr) (r : RegIdx) : readReg (startState s c) r = 0 := by
  simp [readReg, startState, zeroCore]

/-- Settles O47, by the answer of the fetch at `ENTRY_PC`. -/
theorem resetDiscardsEverythingInFlight : Obligations.ResetDiscardsEverythingInFlight := by
  intro s
  refine ⟨fun c hc => ⟨_, coreReset_eq_next.2 ⟨c, hc, rfl⟩⟩, fun r hr => ?_, fun r hr => ?_, fun t ht => ?_⟩
  · exact fetch_of_fault ((ifetch_zeroCore s _).trans hr)
  · exact fetch_of_refused ((ifetch_zeroCore s _).trans hr)
  · obtain ⟨c, hc, rfl⟩ := coreReset_eq_next.1 ht
    exact ⟨rfl, readReg_startState s c, hc, rfl, by simp [startState, zeroCore]⟩

/-- Settles O48: the entry of empty instruction memory reads as the all-zero NOP (R68). -/
theorem startStateIsReset : Obligations.StartStateIsReset :=
  have hc : ifetch State.reset State.reset.cfg.entryPc = .next .emptyNop := rfl
  coreReset_eq_next.2 ⟨_, hc, rfl⟩

/-! ### `getState()` -/

/-- Two register files list the same first `n` registers iff each register below `n` is the same (R22). -/
theorem take_regs_eq_iff (v w : Vector Word 32) (n : Nat) :
    v.toList.take n = w.toList.take n ↔
      ∀ r : RegIdx, r.toNat < n → v[r.toNat]'r.isLt = w[r.toNat]'r.isLt := by
  constructor
  · intro h r hr
    have hg : v[r.toNat]? = w[r.toNat]? := by simpa [List.getElem?_take_of_lt hr] using congrArg (·[r.toNat]?) h
    rwa [Vector.getElem?_eq_getElem r.isLt, Vector.getElem?_eq_getElem r.isLt, Option.some_inj] at hg
  · intro h
    refine List.ext_getElem (by simp) fun k hk _ => ?_
    simp only [List.length_take, Vector.length_toList, Nat.lt_min] at hk
    simpa [Nat.mod_eq_of_lt hk.2] using h (BitVec.ofNat 5 k) (by simpa [Nat.mod_eq_of_lt hk.2] using hk.1)

/-- Settles O49, field by field of the snapshot. -/
theorem snapshotShowsExactlyTheMachineState : Obligations.SnapshotShowsExactlyTheMachineState := by
  intro s t hn
  simp only [getState, MachineState.mk.injEq, hn, take_regs_eq_iff, readReg, List.cons.injEq, and_true]

end Sys2Proof.Machine
end

section
/-! SUPPORT. The ports and what stands behind them: a word of the sparse memories, what the fetch port answers, the
port calls of a tick, and how a tick stops on an input that is not defined. -/

namespace Sys2Proof.Machine

/-! ### A word of memory (R63, R64, R68) -/

/-- Two different multiples of 4 never alias (R68). -/
theorem readWord_writeWord_other {m : List Host.Cell} {a b v : Word} (h : Memory.wf m = true) (ha : aligned a = true)
    (hb : aligned b = true) (hne : b ≠ a) : readWord (writeWord m a v) b = readWord m b := by
  have hn : b.toNat ≠ a.toNat := fun e => hne (BitVec.eq_of_toNat_eq e)
  have hmod : a.toNat % 4 = 0 ∧ b.toNat % 4 = 0 := by simpa [aligned] using And.intro ha hb
  have hbyte : ∀ k < 4, readByte (writeWord m a v) (b.toNat + k) = readByte m (b.toNat + k) := fun k hk =>
    (readByte_writeWord h ha _).trans (if_neg (by omega))
  have h0 := hbyte 0 (by omega)
  simp only [Nat.add_zero] at h0
  simp only [readWord, h0, hbyte 1 (by omega), hbyte 2 (by omega), hbyte 3 (by omega)]

/-- Settles O45, by whether the two addresses are the same. -/
theorem wordReadAfterWordWritten : Obligations.WordReadAfterWordWritten := by
  intro m a b v h ha hb
  split_ifs with hab
  · subst hab; exact readWord_writeWord_same h ha
  · exact readWord_writeWord_other h ha hb hab

/-- The bytes of a word read are those at its four addresses (R64). -/
theorem byteOfWord_readWord (m : List Host.Cell) (a : Word) {k : Nat} (hk : k < 4) :
    byteOfWord (readWord m a) k = readByte m (a.toNat + k) := by
  match k, hk with
  | 0, _ => exact BitVec.extractLsb'_append_eq_right
  | 1, _ => exact (BitVec.extractLsb'_append_eq_of_le (by omega)).trans BitVec.extractLsb'_append_eq_right
  | 2, _ =>
    exact (BitVec.extractLsb'_append_eq_of_le (by omega)).trans <|
      (BitVec.extractLsb'_append_eq_of_le (by omega)).trans BitVec.extractLsb'_append_eq_right
  | 3, _ =>
    exact (BitVec.extractLsb'_append_eq_of_le (by omega)).trans <|
      (BitVec.extractLsb'_append_eq_of_le (by omega)).trans BitVec.extractLsb'_append_eq_left

/-- Canonical memories that read alike are equal. -/
theorem wf_ext {m m' : List Host.Cell} (h : Memory.wf m = true) (h' : Memory.wf m' = true)
    (he : ∀ a, readByte m a = readByte m' a) : m = m' :=
  canonFrom_ext h h' he

/-- Settles O46: the second half is the first, byte by byte of the word written back. -/
theorem canonicalMemoryIsItsContents : Obligations.CanonicalMemoryIsItsContents := by
  refine ⟨fun m m' => wf_ext, fun m a h ha => wf_ext (wf_writeWord h ha) h fun b => ?_⟩
  rw [readByte_writeWord h ha]
  split_ifs with hb
  · rw [byteOfWord_readWord m a (by omega), Nat.add_sub_cancel' hb.1]
  · rfl

/-! ### The fetch port (R60, R182) -/

section FetchPort
variable {s : State} {a : Word}

theorem ifetch_of_misaligned (ha : aligned a = false) : ifetch s a = .refused .misalignedInstructionAddress := by
  simp [ifetch, ha]

/-- A fetch that answers a Command is from a multiple of 4 (R65). -/
theorem aligned_of_ifetch {c : Instr} (h : ifetch s a = .next c) : aligned a = true := by
  by_contra ha
  rw [ifetch_of_misaligned (by simpa using ha)] at h
  cases h

/-- A record given at the address is the answer if it passes its check (R90). -/
theorem ifetch_of_record {r : Record} {i : Instr} (ha : aligned a = true) (hl : lookup none s.irec a.toNat = some r)
    (hc : r.check s.cfg.nregs = .ok i) : ifetch s a = .next i := by
  simp [ifetch, commandAt, ha, hl, hc]

/-- A record that fails its check stops the fetch (R100, U1, U2). -/
theorem ifetch_of_bad_record {r : Record} {e : DecodeError} (ha : aligned a = true)
    (hl : lookup none s.irec a.toNat = some r) (hc : r.check s.cfg.nregs = .error e) : ifetch s a = recordStop e := by
  simp [ifetch, commandAt, ha, hl, hc]

/-- Where no record is given the packed word is decoded (R68, R97). -/
theorem ifetch_of_word {i : Instr} (ha : aligned a = true) (hl : lookup none s.irec a.toNat = none)
    (hd : decode s.cfg.nregs (readWord s.imem a) = .ok i) : ifetch s a = .next i := by
  simp [ifetch, commandAt, ha, hl, hd]

/-- A packed word that is no Command stops the fetch (R100, U2, U3). -/
theorem ifetch_of_bad_word {e : DecodeError} (ha : aligned a = true) (hl : lookup none s.irec a.toNat = none)
    (hd : decode s.cfg.nregs (readWord s.imem a) = .error e) : ifetch s a = wordStop e := by
  simp [ifetch, commandAt, ha, hl, hd]

end FetchPort

/-- Settles O38, by what instruction memory holds at the address. -/
theorem fetchPortAnswersByName : Obligations.FetchPortAnswersByName := by
  intro s a
  refine ⟨ifetch_of_misaligned, fun ha hl => ?_, fun r ha hl => ?_⟩
  · exact ⟨fun i => ifetch_of_word ha hl, ifetch_of_bad_word ha hl, ifetch_of_bad_word ha hl, ifetch_of_bad_word ha hl⟩
  · exact ⟨fun i => ifetch_of_record ha hl, ifetch_of_bad_record ha hl, ifetch_of_bad_record ha hl⟩

/-! ### The instruction at `pc` -/

/-- A tick with no stall, bubble or flush shifts every slot (R254, R255). -/
theorem TickKind.shiftTick {s t : State} (k : TickKind s t) (ha : t.canAdvance = true) (hp : s.hazardPending = false)
    (ht : s.memTaken = false) : ShiftTick s t := by
  cases k with
  | shift k => exact k
  | stalled k => simp [k.canAdvance] at ha
  | bubble k => simp [k.pending] at hp
  | flush k => simp [k.taken] at ht

/-- The occupant of Fetch is what the fetch port answers at `pc` (R182, R269). -/
theorem Inv.slotF_cmd_eq {s : State} {i : Instr} (hi : Inv s) (h : ifetch s s.pc = .next i) : s.slotF.cmd = i := by
  rw [hi.fetchedIsMemory] at h
  exact Host.Outcome.next.inj h

/-- Settles O23: the fetch port answers the instruction, and a shift moves it to Decode as it is. -/
theorem bytesAtPcRunAsDecoded : Obligations.BytesAtPcRunAsDecoded := by
  intro s t i hi h
  have ha := aligned_of_ifetch hi.fetchedIsMemory
  have hf : ifetch s s.pc = .next i := by
    rcases h with ⟨hl, hd⟩ | ⟨r, hl, hc⟩
    · exact ifetch_of_word ha hl hd
    · exact ifetch_of_record ha hl hc
  have hcmd := hi.slotF_cmd_eq hf
  refine ⟨by rw [computeStage, slotOf_fetch, hcmd], fun hstep hadv hp ht => ?_⟩
  have hD := ((step_kinds hstep).2.shiftTick hadv hp ht).slotD
  refine ⟨by rw [hD, hcmd], by rw [hD, hi.pcIsFetchAddress], fun u hu => ?_⟩
  rw [computeStage, slotOf_decode, hu, hD, hcmd]

/-! ### What a tick calls and what it leaves alone -/

/-- Settles O34: every kind of tick keeps the frame. -/
theorem oneTickLeavesTheEnvironmentAlone : Obligations.OneTickLeavesTheEnvironmentAlone := by
  intro s t h
  obtain ⟨f, -⟩ := step_kinds h
  exact ⟨f.imem, f.irec, f.cfg, f.readyDefault, f.readyExcept, f.tick⟩

/-- The call of Memory compute, then the one fetch of a normal advance (R261, R268). -/
theorem TickKind.calls_eq {s t : State} (k : TickKind s t) : t.calls = memoryCalls s ++
    (if t.canAdvance = true ∧ ¬(s.hazardPending = true ∧ s.memTaken = false) then [.ifetch t.pc] else []) := by
  cases k with
  | stalled k => simp [k.calls, k.canAdvance]
  | bubble k => simp [k.calls, k.pending, k.notTaken]
  | shift k => simp [k.calls, k.canAdvance, k.notPending, k.pc]
  | flush k => simp [k.calls, k.canAdvance, k.taken, k.pc]

/-- Settles O32, by the kind of tick. -/
theorem portCallsOfOneTick : Obligations.PortCallsOfOneTick := by
  intro s t h
  obtain ⟨-, k⟩ := step_kinds h
  exact k.calls_eq

/-! ### How a tick stops -/

/-- Memory compute goes on whenever the address of a LOAD or STORE is a multiple of 4 (R65). -/
theorem memoryOut_goes_on {s : State}
    (ha : s.slotM.cmd.opcode = .load ∨ s.slotM.cmd.opcode = .store → aligned s.memRes = true) :
    ∃ u, memoryOut s = .next u := by
  unfold memoryOut
  split_ifs with hl hs
  · cases hr : ready s s.tick
    · exact ⟨_, loadAccess_eq_next.2 ⟨ha (.inl hl), .inr ⟨hr, rfl⟩⟩⟩
    · exact ⟨_, loadAccess_eq_next.2 ⟨ha (.inl hl), .inl ⟨hr, rfl⟩⟩⟩
  · exact ⟨_, storeAccess_eq_next.2 ⟨ha (.inr hs), rfl⟩⟩
  · exact ⟨_, rfl⟩

/-- A tick with no misaligned data address, no stall and no bubble ends with the fetch of a normal advance (R254, R255,
R261), whose address and instruction memory are those the tick began with. -/
theorem step_eq_fetch {s : State}
    (ha : s.slotM.cmd.opcode = .load ∨ s.slotM.cmd.opcode = .store → aligned s.memRes = true)
    (hr : ¬(s.slotM.cmd.opcode = .load ∧ ready s (s.tick + 1) = false))
    (hn : ¬(s.hazardPending = true ∧ s.memTaken = false)) :
    ∃ v, ifetch v v.pc = ifetch s (nextPc s) ∧
      step s = andThen (andThen (fetch v) fun t => .next (recomputeHazard t)) fun t => .next (atStage .fetch t) := by
  obtain ⟨u, hu⟩ := memoryOut_goes_on (s := beforeMemory s) (by simpa using ha)
  have m := memoryDone_of_memoryOut hu
  have hadv : (beforeFinish s u).canAdvance = true := by
    rw [beforeFinish_canAdvance, m.canAdvance_iff]
    simpa using hr
  have hpath : ((beforeFinish s u).hazardPending && !(beforeFinish s u).memTaken) = false := by
    simpa [m.hazardPending, m.memTaken] using hn
  refine ⟨advanceSlots (beforeFinish s u), ?_, ?_⟩
  · rw [advanceSlots_pc, m.nextPc_beforeFinish]
    exact ifetch_congr _ (by simp [m.cfg]) (by simp [m.imem]) (by simp [m.irec])
  · rw [step_eq, hu, andThen_next, ← beforeFinish, finishTick, if_pos hadv, advance, hpath]
    rfl

/-- Settles O37: a misaligned data address stops Memory compute, a fetch that gives no Command stops the advance. -/
theorem undefinedInputsStopTheTick : Obligations.UndefinedInputsStopTheTick := by
  refine fun s => ⟨step_eq_refused, fun ha hr hn => ?_⟩
  obtain ⟨v, hv, hstep⟩ := step_eq_fetch ha hr hn
  refine ⟨fun r h => ?_, fun r h => ?_⟩
  · rw [hstep, fetch_of_fault (hv.trans h), andThen_fault, andThen_fault]
  · rw [hstep, fetch_of_refused (hv.trans h), andThen_refused, andThen_refused]

end Sys2Proof.Machine
end

section
/-! SUPPORT. The packed word and the record check (spec/30_encoding.md R91, R96 to R101): a word is its fields, the
fields of an encoded Command are the Command's own, and each of the two checks says once what it answers when. The
obligations of the encoding are settled from these. -/

namespace Sys2Proof

/-! ### The record fields of a Command (R90) -/

section Fields
variable (op : Opcode) (m : Bool) (d a b : RegIdx) (n : Word)

@[simp] theorem Instr.ofFields_dstIndex : (Instr.ofFields op m d a b n).dstIndex = d := by
  simp [Instr.dstIndex]

@[simp] theorem Instr.ofFields_src1Index : (Instr.ofFields op m d a b n).src1Index = a := by
  simp [Instr.src1Index]

@[simp] theorem Instr.ofFields_src2Index : (Instr.ofFields op m d a b n).src2Index = b := by
  simp [Instr.src2Index]

@[simp] theorem Instr.ofFields_immediateValue : (Instr.ofFields op m d a b n).immediateValue = n := by
  simp [Instr.immediateValue]

end Fields

theorem Instr.indicesBelow_iff (nregs : Nat) (i : Instr) : i.indicesBelow nregs = true ↔
    i.dstIndex.toNat < nregs ∧ i.src1Index.toNat < nregs ∧ i.src2Index.toNat < nregs := by
  simp [Instr.indicesBelow, and_assoc]

/-- With 32 registers every index a Command can hold is in range (R6, R20). -/
theorem Instr.indicesBelow_32 (i : Instr) : i.indicesBelow 32 = true :=
  (Instr.indicesBelow_iff 32 i).2 ⟨i.dstIndex.isLt, i.src1Index.isLt, i.src2Index.isLt⟩

/-- A Command of the immediate form has a packed word iff `src2Index` is 0 and the immediate fits (R98). -/
theorem Instr.packable_of_immediate {i : Instr} (h : i.isSrc2Immediate = true) :
    i.packable = true ↔ i.src2Index = 0 ∧ sext16 (i.immediateValue.truncate 16) = i.immediateValue := by
  simp [Instr.packable, h, immFits16, sext16]

/-- A Command of the register form has a packed word iff its immediate is 0 (R98). -/
theorem Instr.packable_of_register {i : Instr} (h : i.isSrc2Immediate = false) :
    i.packable = true ↔ i.immediateValue = 0 := by
  simp [Instr.packable, h]

theorem Instr.wellFormed_iff (nregs : Nat) (i : Instr) :
    i.wellFormed nregs = true ↔ i.indicesBelow nregs = true ∧ i.packable = true := by
  simp [Instr.wellFormed]

/-! ### Opcode numbers (R95) -/

theorem Opcode.ofNumber_number (op : Opcode) : Opcode.ofNumber op.number.toNat = some op :=
  (Opcode.ofNumber_eq_some _ _).2 rfl

/-- Of all numbers a record can hold, those of 8 or more name no opcode. -/
theorem Opcode.ofNumber_eq_none_iff (n : Nat) : Opcode.ofNumber n = none ↔ 8 ≤ n :=
  match n with
  | 0 | 1 | 2 | 3 | 4 | 5 | 6 | 7 => by simp [Opcode.ofNumber]
  | n + 8 => by simp [Opcode.ofNumber]

theorem Opcode.exists_ofNumber {n : Nat} (h : n < 8) : ∃ op, Opcode.ofNumber n = some op :=
  Option.ne_none_iff_exists'.1 fun hn => absurd ((Opcode.ofNumber_eq_none_iff n).1 hn) (by omega)

/-! ### A word is its fields (R96) -/

/-- Two words that agree in a field agree in each of its bits. -/
theorem getLsbD_eq_of_field_eq {w v : Word} {start len k : Nat}
    (h : w.extractLsb' start len = v.extractLsb' start len) (hs : start ≤ k) (he : k < start + len) :
    w.getLsbD k = v.getLsbD k := by
  have hk := congrArg (BitVec.getLsbD · (k - start)) h
  simpa [show k - start < len by omega, show start + (k - start) = k by omega] using hk

/-- Two words are the same iff their fields are. -/
theorem word_eq_iff {w v : Word} : w = v ↔
    opField w = opField v ∧ immFlag w = immFlag v ∧ reservedBit w = reservedBit v ∧ dstField w = dstField v ∧
      src1Field w = src1Field v ∧ imm16Field w = imm16Field v := by
  refine ⟨fun h => by simp [h], ?_⟩
  rintro ⟨hop, hI, hz, hd, ha, hl⟩
  apply BitVec.eq_of_getLsbD_eq
  intro k hk
  obtain h | h | h | rfl | rfl | h : k < 16 ∨ (16 ≤ k ∧ k < 21) ∨ (21 ≤ k ∧ k < 26) ∨ k = 26 ∨ k = 27 ∨ 28 ≤ k := by
    omega
  · exact getLsbD_eq_of_field_eq hl (by omega) (by omega)
  · exact getLsbD_eq_of_field_eq ha (by omega) (by omega)
  · exact getLsbD_eq_of_field_eq hd (by omega) (by omega)
  · exact hz
  · exact hI
  · exact getLsbD_eq_of_field_eq hop (by omega) (by omega)

/-- The low half is `zeroField` above `src2Field`. -/
theorem imm16Field_eq_append (w : Word) : imm16Field w = zeroField w ++ src2Field w :=
  (BitVec.extractLsb'_append_extractLsb'_eq_extractLsb' (len₁ := 5) (len₂ := 11) rfl).symm

theorem zeroField_eq_of_append {w : Word} {a : BitVec 11} {b : RegIdx} (h : imm16Field w = a ++ b) :
    zeroField w = a := by
  rw [imm16Field_eq_append] at h
  have hf := congrArg (BitVec.extractLsb' 5 11) h
  rwa [BitVec.extractLsb'_append_eq_left, BitVec.extractLsb'_append_eq_left] at hf

theorem src2Field_eq_of_append {w : Word} {a : BitVec 11} {b : RegIdx} (h : imm16Field w = a ++ b) :
    src2Field w = b := by
  rw [imm16Field_eq_append] at h
  have hf := congrArg (BitVec.extractLsb' 0 5) h
  rwa [BitVec.extractLsb'_append_eq_right, BitVec.extractLsb'_append_eq_right] at hf

/-- Two low halves are the same iff their two parts are. -/
theorem imm16Field_eq_iff {w v : Word} :
    imm16Field w = imm16Field v ↔ zeroField w = zeroField v ∧ src2Field w = src2Field v := by
  constructor
  · intro h
    rw [imm16Field_eq_append v] at h
    exact ⟨zeroField_eq_of_append h, src2Field_eq_of_append h⟩
  · rintro ⟨h0, h2⟩
    rw [imm16Field_eq_append, h0, h2, ← imm16Field_eq_append]

section EncodedFields
open BitVec
variable (i : Instr)

@[simp] theorem opField_encodeWord : opField (encodeWord i) = i.opcode.number := by
  unfold opField encodeWord packHigh
  iterate 4 rw [extractLsb'_append_eq_of_le (by omega)]
  exact extractLsb'_append_eq_left

@[simp] theorem immFlag_encodeWord : immFlag (encodeWord i) = i.isSrc2Immediate := by
  unfold immFlag encodeWord packHigh
  iterate 4 rw [getLsbD_append, if_neg (by omega)]
  rw [getLsbD_append, if_pos (by omega)]
  exact getLsbD_ofBool ..

@[simp] theorem reservedBit_encodeWord : reservedBit (encodeWord i) = false := by
  unfold reservedBit encodeWord packHigh
  iterate 3 rw [getLsbD_append, if_neg (by omega)]
  rw [getLsbD_append, if_pos (by omega)]
  exact getLsbD_zero

@[simp] theorem dstField_encodeWord : dstField (encodeWord i) = i.dstIndex := by
  unfold dstField encodeWord packHigh
  iterate 2 rw [extractLsb'_append_eq_of_le (by omega)]
  exact extractLsb'_append_eq_right

@[simp] theorem src1Field_encodeWord : src1Field (encodeWord i) = i.src1Index := by
  unfold src1Field encodeWord packHigh
  rw [extractLsb'_append_eq_of_le (by omega)]
  exact extractLsb'_append_eq_right

@[simp] theorem imm16Field_encodeWord : imm16Field (encodeWord i) = packLow i :=
  extractLsb'_append_eq_right

variable {i}

/-- The low half of an encoded Command of the immediate form is its immediate's (R96). -/
theorem packLow_of_immediate (h : i.isSrc2Immediate = true) : packLow i = i.immediateValue.truncate 16 := by
  simp [packLow, h]

/-- The low half of an encoded Command of the register form is `src2Index` below zeros (R96). -/
theorem packLow_of_register (h : i.isSrc2Immediate = false) : packLow i = (0 : BitVec 11) ++ i.src2Index := by
  simp [packLow, h]

theorem zeroField_encodeWord (h : i.isSrc2Immediate = false) : zeroField (encodeWord i) = 0 :=
  zeroField_eq_of_append ((imm16Field_encodeWord i).trans (packLow_of_register h))

theorem src2Field_encodeWord (h : i.isSrc2Immediate = false) : src2Field (encodeWord i) = i.src2Index :=
  src2Field_eq_of_append ((imm16Field_encodeWord i).trans (packLow_of_register h))

end EncodedFields

/-! ### Decode and encode are inverse (R98) -/

/-- Truncating a sign extension gives the 16 bits back (R97). -/
theorem truncate_sext16 (v : BitVec 16) : (sext16 v).truncate 16 = v := by
  ext k hk
  simp [sext16, BitVec.getElem_signExtend, hk, show k < 32 by omega]

/-- Settles O2, by the form: the fields of the packed word are the Command's, and it is its fields. -/
theorem decodeOfEncodeIsTheCommand : Obligations.DecodeOfEncodeIsTheCommand := by
  intro nregs i h
  obtain ⟨hb, hp⟩ := (Instr.wellFormed_iff nregs i).1 h
  refine (decode_eq_ok _ _ _).2 ⟨i.opcode, opField_encodeWord i, reservedBit_encodeWord i, hb, ?_⟩
  have heta := i.ofFields_eta
  cases hm : i.isSrc2Immediate
  · have hn := (Instr.packable_of_register hm).1 hp
    refine .inr ⟨by simp [hm], zeroField_encodeWord hm, ?_⟩
    rw [dstField_encodeWord, src1Field_encodeWord, src2Field_encodeWord hm]
    rw [hm, hn] at heta
    exact heta.symm
  · obtain ⟨h2, hn⟩ := (Instr.packable_of_immediate hm).1 hp
    refine .inl ⟨by simp [hm], ?_⟩
    rw [dstField_encodeWord, src1Field_encodeWord, imm16Field_encodeWord, packLow_of_immediate hm, hn]
    rw [hm, h2] at heta
    exact heta.symm

/-- Settles O3, by the form `decode` accepts: the packed word has the word's fields. -/
theorem encodeOfDecodeIsTheWord : Obligations.EncodeOfDecodeIsTheWord := by
  intro nregs w i h
  obtain ⟨op, hop, hz, hb, ⟨hI, rfl⟩ | ⟨hI, h0, rfl⟩⟩ := (decode_eq_ok _ _ _).1 h
  · refine ⟨?_, (Instr.wellFormed_iff _ _).2 ⟨hb, ?_⟩⟩
    · simp [word_eq_iff, packLow_of_immediate, truncate_sext16, hop, hI, hz]
    · simp [Instr.packable_of_immediate, truncate_sext16]
  · refine ⟨?_, (Instr.wellFormed_iff _ _).2 ⟨hb, ?_⟩⟩
    · rw [word_eq_iff, imm16Field_eq_iff]
      simp [zeroField_encodeWord, src2Field_encodeWord, hop, hI, hz, h0]
    · simp [Instr.packable_of_register]

/-! ### The rows of the opcode map (R99) -/

section Masked
variable (w v : Word)

@[simp] theorem opField_and : opField (w &&& v) = opField w &&& opField v := BitVec.extractLsb'_and
@[simp] theorem immFlag_and : immFlag (w &&& v) = (immFlag w && immFlag v) := BitVec.getLsbD_and
@[simp] theorem reservedBit_and : reservedBit (w &&& v) = (reservedBit w && reservedBit v) := BitVec.getLsbD_and
@[simp] theorem dstField_and : dstField (w &&& v) = dstField w &&& dstField v := BitVec.extractLsb'_and
@[simp] theorem src1Field_and : src1Field (w &&& v) = src1Field w &&& src1Field v := BitVec.extractLsb'_and
@[simp] theorem zeroField_and : zeroField (w &&& v) = zeroField w &&& zeroField v := BitVec.extractLsb'_and
@[simp] theorem src2Field_and : src2Field (w &&& v) = src2Field w &&& src2Field v := BitVec.extractLsb'_and
@[simp] theorem imm16Field_and : imm16Field (w &&& v) = imm16Field w &&& imm16Field v := BitVec.extractLsb'_and

end Masked

/-- The match of a row is the packed word of the row's Command with all operands zero. -/
theorem rowMatch_eq_encodeWord (op : Opcode) (imm : Bool) :
    (op.number.zeroExtend 32 <<< 28 ||| (if imm then 0x08000000#32 else 0#32)) =
      encodeWord (.ofFields op imm 0 0 0 0) := by
  cases op <;> cases imm <;> rfl

/-- The mask of the immediate form keeps `op`, `I` and bit 26. -/
theorem immediateRow_iff (w : Word) (op : Opcode) :
    w &&& 0xFC000000#32 = encodeWord (.ofFields op true 0 0 0 0) ↔
      opField w = op.number ∧ immFlag w = true ∧ reservedBit w = false := by
  have hop : opField w &&& opField 0xFC000000#32 = opField w := BitVec.and_allOnes
  have hI : immFlag 0xFC000000#32 = true := rfl
  have hz : reservedBit 0xFC000000#32 = true := rfl
  have hd : dstField 0xFC000000#32 = 0 := rfl
  have ha : src1Field 0xFC000000#32 = 0 := rfl
  have hl : imm16Field 0xFC000000#32 = 0 := rfl
  simp [word_eq_iff, packLow_of_immediate, hop, hI, hz, hd, ha, hl]

/-- The mask of the register form keeps `op`, `I`, bit 26 and bits 15:5. -/
theorem registerRow_iff (w : Word) (op : Opcode) :
    w &&& 0xFC00FFE0#32 = encodeWord (.ofFields op false 0 0 0 0) ↔
      opField w = op.number ∧ immFlag w = false ∧ reservedBit w = false ∧ zeroField w = 0 := by
  have hop : opField w &&& opField 0xFC00FFE0#32 = opField w := BitVec.and_allOnes
  have hI : immFlag 0xFC00FFE0#32 = true := rfl
  have hz : reservedBit 0xFC00FFE0#32 = true := rfl
  have hd : dstField 0xFC00FFE0#32 = 0 := rfl
  have ha : src1Field 0xFC00FFE0#32 = 0 := rfl
  have h0 : zeroField w &&& zeroField 0xFC00FFE0#32 = zeroField w := BitVec.and_allOnes
  have h2 : src2Field 0xFC00FFE0#32 = 0 := rfl
  rw [word_eq_iff, imm16Field_eq_iff]
  simp [zeroField_encodeWord, src2Field_encodeWord, hop, hI, hz, hd, ha, h0, h2]

/-- With 32 registers a word decodes to the opcode and form that its fields name (R97). -/
theorem decode_32_form_iff (w : Word) (op : Opcode) (imm : Bool) :
    (∃ i, decode 32 w = .ok i ∧ i.opcode = op ∧ i.isSrc2Immediate = imm) ↔
      opField w = op.number ∧ immFlag w = imm ∧ reservedBit w = false ∧ (imm = false → zeroField w = 0) := by
  constructor
  · rintro ⟨i, hi, rfl, rfl⟩
    obtain ⟨op, hop, hz, -, ⟨hI, rfl⟩ | ⟨hI, h0, rfl⟩⟩ := (decode_eq_ok _ _ _).1 hi
    · simp [hop, hz, hI]
    · simp [hop, hz, hI, h0]
  · rintro ⟨hop, hI, hz, h0⟩
    cases imm
    · exact ⟨_, (decode_eq_ok _ _ _).2 ⟨op, hop, hz, Instr.indicesBelow_32 _, .inr ⟨hI, h0 rfl, rfl⟩⟩, by simp⟩
    · exact ⟨_, (decode_eq_ok _ _ _).2 ⟨op, hop, hz, Instr.indicesBelow_32 _, .inl ⟨hI, rfl⟩⟩, by simp⟩

/-- Settles O4, by the form. -/
theorem rowMatchIsDecoding : Obligations.RowMatchIsDecoding := by
  intro w op imm
  rw [rowMatch_eq_encodeWord, decode_32_form_iff]
  cases imm
  · simpa using registerRow_iff w op
  · simpa using immediateRow_iff w op

/-! ### What `decode` answers (R97, R101) -/

/-- Bit 26 set, or the register form with any of bits 15:5 set: the reserved encodings of R101. -/
def ReservedWord (w : Word) : Prop := reservedBit w = true ∨ (immFlag w = false ∧ zeroField w ≠ 0)

/-- Every index the word's form has is below `NREGS` (R97). -/
def FieldsBelow (nregs : Nat) (w : Word) : Prop :=
  (dstField w).toNat < nregs ∧ (src1Field w).toNat < nregs ∧ (immFlag w = false → (src2Field w).toNat < nregs)

theorem not_fieldsBelow_iff {nregs : Nat} {w : Word} : ¬FieldsBelow nregs w ↔
    nregs ≤ (dstField w).toNat ∨ nregs ≤ (src1Field w).toNat ∨
      (immFlag w = false ∧ nregs ≤ (src2Field w).toNat) := by
  simp only [FieldsBelow, not_and_or, Classical.not_imp, not_lt]

/-- With 32 registers every five-bit index is in range (R6, R20). -/
theorem fieldsBelow_32 (w : Word) : FieldsBelow 32 w :=
  ⟨(dstField w).isLt, (src1Field w).isLt, fun _ => (src2Field w).isLt⟩

/-- First test of R97: the opcode. -/
theorem decode_of_unknownOpcode {nregs : Nat} {w : Word} (h : 8 ≤ (opField w).toNat) :
    decode nregs w = .error .unknownOpcode := by
  simp only [decode, (Opcode.ofNumber_eq_none _).2 h]

/-- Second test of R97: bit 26, and bits 15:5 of the register form. -/
theorem decode_of_reserved {nregs : Nat} {w : Word} (h : (opField w).toNat < 8) (hr : ReservedWord w) :
    decode nregs w = .error .reservedEncoding := by
  obtain ⟨op, hop⟩ := Opcode.exists_ofNumber h
  obtain hz | ⟨hI, h0⟩ := hr
  · simp only [decode, hop, hz, if_true]
  · simp only [decode, hop, hI, h0, Bool.false_eq_true, if_false, ite_self]

/-- What passes the first two tests is a Command but for its indices, those of the form it is in. -/
theorem decode_of_not_reserved (nregs : Nat) {w : Word} (h : (opField w).toNat < 8) (hr : ¬ReservedWord w) :
    ∃ i : Instr, decode nregs w = checkIndices nregs i ∧ (i.indicesBelow nregs = true ↔ FieldsBelow nregs w) := by
  obtain ⟨op, hop⟩ := Opcode.exists_ofNumber h
  obtain ⟨hz, h0⟩ : reservedBit w = false ∧ (immFlag w = false → zeroField w = 0) := by
    simpa [ReservedWord] using hr
  cases hI : immFlag w
  · refine ⟨.ofFields op false (dstField w) (src1Field w) (src2Field w) 0, ?_, ?_⟩
    · simp [decode, hop, hz, hI, h0 hI]
    · simp [Instr.indicesBelow_iff, FieldsBelow, hI]
  · refine ⟨.ofFields op true (dstField w) (src1Field w) 0 (sext16 (imm16Field w)), ?_, ?_⟩
    · simp [decode, hop, hz, hI]
    · simp [Instr.indicesBelow_iff, FieldsBelow, hI]
      omega

/-- The four answers of `decode`, each with its condition (R97, in the order of its tests). -/
theorem decode_cases (nregs : Nat) (w : Word) :
    (8 ≤ (opField w).toNat ∧ decode nregs w = .error .unknownOpcode) ∨
    ((opField w).toNat < 8 ∧ ReservedWord w ∧ decode nregs w = .error .reservedEncoding) ∨
    ((opField w).toNat < 8 ∧ ¬ReservedWord w ∧ ¬FieldsBelow nregs w ∧
      decode nregs w = .error .registerIndexOutOfRange) ∨
    ((opField w).toNat < 8 ∧ ¬ReservedWord w ∧ FieldsBelow nregs w ∧ ∃ i, decode nregs w = .ok i) := by
  by_cases hop : 8 ≤ (opField w).toNat
  · exact .inl ⟨hop, decode_of_unknownOpcode hop⟩
  rw [not_le] at hop
  by_cases hr : ReservedWord w
  · exact .inr (.inl ⟨hop, hr, decode_of_reserved hop hr⟩)
  obtain ⟨i, hi, hb⟩ := decode_of_not_reserved nregs hop hr
  by_cases hf : FieldsBelow nregs w
  · exact .inr (.inr (.inr ⟨hop, hr, hf, i, by rw [hi, checkIndices, if_pos (hb.2 hf)]⟩))
  · exact .inr (.inr (.inl ⟨hop, hr, hf, by rw [hi, checkIndices, if_neg (mt hb.1 hf)]⟩))

theorem decode_eq_unknownOpcode_iff (nregs : Nat) (w : Word) :
    decode nregs w = .error .unknownOpcode ↔ 8 ≤ (opField w).toNat := by
  obtain ⟨h, hd⟩ | ⟨h, -, hd⟩ | ⟨h, -, -, hd⟩ | ⟨h, -, -, i, hd⟩ := decode_cases nregs w <;> simp [hd, h]

theorem decode_eq_reservedEncoding_iff (nregs : Nat) (w : Word) :
    decode nregs w = .error .reservedEncoding ↔ (opField w).toNat < 8 ∧ ReservedWord w := by
  obtain ⟨h, hd⟩ | ⟨h, hr, hd⟩ | ⟨h, hr, -, hd⟩ | ⟨h, hr, -, i, hd⟩ := decode_cases nregs w <;> simp [*]

theorem decode_eq_registerIndexOutOfRange_iff (nregs : Nat) (w : Word) :
    decode nregs w = .error .registerIndexOutOfRange ↔
      (opField w).toNat < 8 ∧ ¬ReservedWord w ∧ ¬FieldsBelow nregs w := by
  obtain ⟨h, hd⟩ | ⟨h, hr, hd⟩ | ⟨h, hr, hf, hd⟩ | ⟨h, hr, hf, i, hd⟩ := decode_cases nregs w <;> simp [*]

theorem decode_accepts_iff (nregs : Nat) (w : Word) :
    (∃ i, decode nregs w = .ok i) ↔ (opField w).toNat < 8 ∧ ¬ReservedWord w ∧ FieldsBelow nregs w := by
  obtain ⟨h, hd⟩ | ⟨h, hr, hd⟩ | ⟨h, hr, hf, hd⟩ | ⟨h, hr, hf, i, hd⟩ := decode_cases nregs w <;> simp [*]

/-- Settles O5, by the four answers of `decode`. -/
theorem reservedWordsAreRejectedByName : Obligations.ReservedWordsAreRejectedByName := by
  refine ⟨fun nregs w => ⟨decode_eq_unknownOpcode_iff nregs w, decode_eq_reservedEncoding_iff nregs w, ?_,
    decode_accepts_iff nregs w⟩, fun w => ?_⟩
  · rw [← not_fieldsBelow_iff]
    exact decode_eq_registerIndexOutOfRange_iff nregs w
  · rw [decode_accepts_iff, and_iff_left (fieldsBelow_32 w)]
    rfl

/-! ### The record check (R91, R100) -/

/-- Every index of the record is below `NREGS` (R91). -/
def Record.IndicesBelow (nregs : Nat) (r : Record) : Prop :=
  r.dstIndex < nregs ∧ r.src1Index < nregs ∧ r.src2Index < nregs

section RecordCheck
variable {nregs : Nat} {r : Record}

theorem Record.check_of_unknownOpcode (h : 8 ≤ r.opcode) : r.check nregs = .error .unknownOpcode := by
  simp only [Record.check, (Opcode.ofNumber_eq_none_iff _).2 h]

theorem Record.check_of_opcode {op : Opcode} (hn : nregs ≤ 32) (h : Opcode.ofNumber r.opcode = some op)
    (hb : r.IndicesBelow nregs) :
    r.check nregs = .ok (.ofFields op r.isSrc2Immediate (BitVec.ofNat 5 r.dstIndex) (BitVec.ofNat 5 r.src1Index)
      (BitVec.ofNat 5 r.src2Index) r.immediateValue) := by
  obtain ⟨hd, ha, h2⟩ := hb
  simp only [Record.check, h]
  exact if_pos ⟨hd, ha, h2, by omega, by omega, by omega⟩

theorem Record.check_of_bad_index (h : r.opcode < 8) (hb : ¬r.IndicesBelow nregs) :
    r.check nregs = .error .registerIndexOutOfRange := by
  obtain ⟨op, hop⟩ := Opcode.exists_ofNumber h
  simp only [Record.check, hop]
  exact if_neg fun ⟨hd, ha, h2, _⟩ => hb ⟨hd, ha, h2⟩

/-- The three answers of the record check, each with its condition (R100, R293). -/
theorem Record.check_cases (hn : nregs ≤ 32) (r : Record) :
    (8 ≤ r.opcode ∧ r.check nregs = .error .unknownOpcode) ∨
    (r.opcode < 8 ∧ ¬r.IndicesBelow nregs ∧ r.check nregs = .error .registerIndexOutOfRange) ∨
    (r.opcode < 8 ∧ r.IndicesBelow nregs ∧ ∃ i, r.check nregs = .ok i) := by
  by_cases hop : 8 ≤ r.opcode
  · exact .inl ⟨hop, check_of_unknownOpcode hop⟩
  rw [not_le] at hop
  by_cases hb : r.IndicesBelow nregs
  · obtain ⟨op, ho⟩ := Opcode.exists_ofNumber hop
    exact .inr (.inr ⟨hop, hb, _, check_of_opcode hn ho hb⟩)
  · exact .inr (.inl ⟨hop, hb, check_of_bad_index hop hb⟩)

end RecordCheck

/-- A Command written as a record passes the check as it is (R91). -/
theorem Record.check_toRecord {nregs : Nat} {i : Instr} (hn : nregs ≤ 32) (h : i.indicesBelow nregs = true) :
    Record.check nregs i.toRecord = .ok i := by
  rw [Record.check_of_opcode (r := i.toRecord) hn (Opcode.ofNumber_number i.opcode)
    ((Instr.indicesBelow_iff nregs i).1 h)]
  simpa [Instr.toRecord] using i.ofFields_eta

/-- Settles O6, by the three answers of the check. -/
theorem recordCheckAcceptsExactlyTheCommands : Obligations.RecordCheckAcceptsExactlyTheCommands := by
  refine fun nregs hn => ⟨fun i => Record.check_toRecord hn, fun r => ?_, fun r => ?_⟩
  · obtain ⟨h, hc⟩ | ⟨h, -, hc⟩ | ⟨h, -, i, hc⟩ := Record.check_cases hn r <;> simp [hc, h]
  · have hb : (nregs ≤ r.dstIndex ∨ nregs ≤ r.src1Index ∨ nregs ≤ r.src2Index) ↔ ¬r.IndicesBelow nregs := by
      simp only [Record.IndicesBelow, not_and_or, not_lt]
    rw [hb]
    obtain ⟨h, hc⟩ | ⟨h, hi, hc⟩ | ⟨h, hi, i, hc⟩ := Record.check_cases hn r <;> simp [*]

/-! ### The spec's words -/

/-- Settles O1: each of the sixteen fixed words is decoded by evaluation. -/
theorem specWordsDecodeToTheirCommands : Obligations.SpecWordsDecodeToTheirCommands :=
  ⟨rfl, rfl, rfl, rfl, rfl, rfl, rfl, rfl, rfl, rfl, rfl, rfl, rfl, rfl, rfl, rfl⟩

end Sys2Proof
end

section
/-! SUPPORT. NOP, ADD and SUB stage by stage (R120 to R124): each is what `exec` does in that stage for every
instruction (`exec_at_execute`, `exec_at_memory`, `exec_at_writeBack`), the tables of R185 and R190 read at its opcode
and its operand form. -/

namespace Sys2Proof.Machine

/-- Settles O9, by stage: the forwarding step and zero latches in Execute, nothing in Memory and Write-Back. -/
theorem nopPassesItsStages : Obligations.NopPassesItsStages :=
  fun _ _ _ _ _ =>
    ⟨fun h => ⟨exec_at_execute _ h, exec_at_execute _ h⟩,
      fun h => ⟨exec_at_memory _ h, exec_at_memory _ h⟩,
      fun h => ⟨exec_at_writeBack _ h, exec_at_writeBack _ h⟩⟩

/-- Settles O10, by stage: R185's sum in Execute, nothing in Memory, `WBval` into the register in Write-Back. -/
theorem addPassesItsStages : Obligations.AddPassesItsStages :=
  fun _ _ _ _ _ =>
    ⟨fun h => ⟨exec_at_execute _ h, exec_at_execute _ h⟩,
      fun h => ⟨exec_at_memory _ h, exec_at_memory _ h⟩,
      fun h => ⟨exec_at_writeBack _ h, exec_at_writeBack _ h⟩⟩

/-- Settles O11, by stage: R185's difference in Execute, nothing in Memory, `WBval` into the register in Write-Back. -/
theorem subPassesItsStages : Obligations.SubPassesItsStages :=
  fun _ _ _ _ _ =>
    ⟨fun h => ⟨exec_at_execute _ h, exec_at_execute _ h⟩,
      fun h => ⟨exec_at_memory _ h, exec_at_memory _ h⟩,
      fun h => ⟨exec_at_writeBack _ h, exec_at_writeBack _ h⟩⟩

end Sys2Proof.Machine
end

section
/-! SUPPORT. Runs of ticks: that a tick with defined inputs goes on, what a run keeps, and the five ticks of one
instruction alone in the pipeline (`LoneInstructionCompletesInFiveTicks`). -/

namespace Sys2Proof.Machine

/-! ### A tick that goes on -/

/-- A tick with no misaligned data address, no stall, no bubble and a Command at the next address goes on, and is a
shift or a flush (R254, R255, R261). -/
theorem step_goes_on {s : State} {c : Instr}
    (ha : s.slotM.cmd.opcode = .load ∨ s.slotM.cmd.opcode = .store → aligned s.memRes = true)
    (hr : s.slotM.cmd.opcode = .load → ready s (s.tick + 1) = true)
    (hp : s.hazardPending = false) (hf : ifetch s (nextPc s) = .next c) :
    ∃ t, step s = .next t ∧ TickFrame s t ∧ (ShiftTick s t ∨ FlushTick s t) := by
  obtain ⟨v, hv, hstep⟩ := step_eq_fetch ha (fun ⟨hl, hn⟩ => by simp [hr hl] at hn) (fun ⟨h, _⟩ => by simp [hp] at h)
  rw [fetch_eq_next.2 ⟨c, hv.trans hf, rfl⟩] at hstep
  refine ⟨_, hstep, ?_⟩
  obtain ⟨f, k⟩ := step_kinds hstep
  refine ⟨f, ?_⟩
  cases k with
  | stalled k => exact absurd (hr k.load) (by simp [k.notReady])
  | bubble k => exact absurd k.pending (by simp [hp])
  | shift k => exact .inl k
  | flush k => exact .inr k

/-! ### What a run keeps -/

theorem runsTo_add {j k : Nat} {s t u : State} (h : RunsTo j s t) (h' : RunsTo k t u) : RunsTo (j + k) s u := by
  induction j generalizing s with
  | zero => cases h; simpa using h'
  | succ j ih =>
    obtain ⟨v, hv, hr⟩ := h
    rw [Nat.add_right_comm]
    exact ⟨v, hv, ih hr⟩

theorem TickFrame.ready_eq {s t : State} (f : TickFrame s t) (n : Nat) : ready t n = ready s n :=
  ready_congr n f.readyDefault f.readyExcept

/-- What an instruction meets in the environment after `k` ticks: the parameters, the program and the readiness are the
same, and `k` ticks are counted (R14, R76, D15). -/
structure RunFrame (k : Nat) (s t : State) : Prop where
  cfg : t.cfg = s.cfg
  ifetch (a : Word) : ifetch t a = ifetch s a
  ready (n : Nat) : ready t n = ready s n
  tick : t.tick = s.tick + k

theorem RunsTo.runFrame {k : Nat} {s t : State} (h : RunsTo k s t) : RunFrame k s t := by
  induction k generalizing s with
  | zero => cases h; exact ⟨rfl, fun _ => rfl, fun _ => rfl, rfl⟩
  | succ k ih =>
    obtain ⟨u, hu, hr⟩ := h
    obtain ⟨f, -⟩ := step_kinds hu
    have r := ih hr
    exact ⟨r.cfg.trans f.cfg, fun a => (r.ifetch a).trans (f.ifetch_eq a), fun n => (r.ready n).trans (f.ready_eq n),
      by rw [r.tick, f.tick]; omega⟩

theorem nopsFrom_congr {s t : State} (h : ∀ a, ifetch t a = ifetch s a) (n : Nat) :
    ∀ a, NopsFrom t a n ↔ NopsFrom s a n := by
  induction n with
  | zero => exact fun _ => Iff.rfl
  | succ n ih => simp [NopsFrom, h, ih]

/-! ### The Commands of the five slots -/

/-- The Commands in the pipeline, Fetch first. -/
structure Holds (s : State) (f d e m w : Instr) : Prop where
  fetch : s.slotF.cmd = f
  decode : s.slotD.cmd = d
  execute : s.slotE.cmd = e
  memory : s.slotM.cmd = m
  writeBack : s.slotW.cmd = w

section Holds
variable {s t : State} {f d e m w : Instr}

theorem ShiftTick.holds (k : ShiftTick s t) (h : Holds s f d e m w) : Holds t t.slotF.cmd f d e m :=
  ⟨rfl, by rw [k.slotD, h.fetch], by rw [k.slotE, decodeSlot_cmd, h.decode],
    by rw [k.slotM, executeSlot_cmd, h.execute], by rw [k.slotW, h.memory]⟩

theorem FlushTick.holds (k : FlushTick s t) (h : Holds s f d e m w) :
    Holds t t.slotF.cmd .emptyNop .emptyNop .emptyNop m :=
  ⟨rfl, by rw [k.slotD, empty_cmd], by rw [k.slotE, empty_cmd], by rw [k.slotM, empty_cmd], by rw [k.slotW, h.memory]⟩

/-- With a NOP in Memory no branch is resolved there (R269 4). -/
theorem Holds.notTaken (h : Holds s f d e .emptyNop w) (hi : Inv s) : s.memTaken = false :=
  Bool.eq_false_iff.2 fun ht => absurd (hi.takenIsBranch ht) (by simp [h.memory, isBranch])

theorem Holds.hazardPending_eq (h : Holds s f d e m w) (hi : Inv s) : s.hazardPending = hazardBetween e d := by
  rw [hi.pendingIsPredicate, h.execute, h.decode]

/-- With a NOP in Memory and a pair in Execute and Decode that needs no bubble, a tick shifts the NOPs at the next
addresses in. -/
theorem Holds.shift_nop (h : Holds s f d e .emptyNop w) (hi : Inv s) (hz : hazardBetween e d = false) {n : Nat}
    (hn : NopsFrom s (s.pc + 4) (n + 1)) :
    ∃ t, step s = .next t ∧ TickFrame s t ∧ ShiftTick s t ∧ Holds t .emptyNop f d e .emptyNop ∧
      NopsFrom t (t.pc + 4) n := by
  have ht := h.notTaken hi
  obtain ⟨hf, hn⟩ := hn
  obtain ⟨t, hstep, fr, k | k⟩ := step_goes_on (by simp [h.memory]) (by simp [h.memory])
    ((h.hazardPending_eq hi).trans hz) (c := .emptyNop) (by simpa [nextPc, ht] using hf)
  · have hc : t.slotF.cmd = .emptyNop := Host.Outcome.next.inj (k.fetched.symm.trans hf)
    refine ⟨t, hstep, fr, k, by simpa only [hc] using k.holds h, ?_⟩
    rwa [nopsFrom_congr fr.ifetch_eq, k.pc]
  · exact absurd (k.taken.symm.trans ht) (by decide)

/-- Its Memory tick takes the instruction of a pipeline that holds NOPs besides into Write-Back, whether it flushes or
shifts (R165, R257 to R260). -/
theorem Holds.leave_memory (h : Holds s .emptyNop .emptyNop .emptyNop m w) (hi : Inv s)
    (ha : m.opcode = .load ∨ m.opcode = .store → aligned s.memRes = true)
    (hr : m.opcode = .load → ready s (s.tick + 1) = true) {n : Nat} (hn : NopsFrom s (nextPc s) (n + 1)) :
    ∃ t, step s = .next t ∧ TickFrame s t ∧ AdvancedTick s t ∧ Holds t t.slotF.cmd .emptyNop .emptyNop .emptyNop m ∧
      t.pc = nextPc s ∧ NopsFrom t (t.pc + 4) n := by
  obtain ⟨hf, hn⟩ := hn
  obtain ⟨t, hstep, fr, k⟩ := step_goes_on (by rwa [h.memory]) (by rwa [h.memory])
    ((h.hazardPending_eq hi).trans rfl) hf
  have hpc : t.pc = nextPc s := by
    rcases k with k | k
    · simp [nextPc, k.pc, k.notTaken]
    · simp [nextPc, k.pc, k.taken]
  refine ⟨t, hstep, fr, ?_, ?_, hpc, by rwa [nopsFrom_congr fr.ifetch_eq, hpc]⟩
  · exact k.elim (fun k => k.toAdvancedTick) fun k => k.toAdvancedTick
  · exact k.elim (fun k => k.holds h) fun k => k.holds h

/-- Write-Back compute of a NOP leaves the registers (R190). -/
theorem Holds.retires_nothing (h : Holds s f d e m .emptyNop) : (retiredState s).regs = s.regs := by
  rw [retiredState_regs, h.writeBack]; rfl

/-- With NOPs in Memory and Write-Back every older instruction has completed. -/
theorem Holds.archAt_eq (h : Holds s f d e .emptyNop .emptyNop) :
    archAt s = { pc := s.slotE.ipc, regs := s.regs, dmem := s.dmem } := by
  rw [archAt, completedRegs_eq, completedDmem, h.memory, h.retires_nothing]; rfl

theorem Holds.noStoreBaseHazard (h : Holds s f d e .emptyNop w) : NoStoreBaseHazard s :=
  fun ⟨hl, _⟩ => absurd hl (by simp [h.memory])

end Holds

/-- A LOAD or STORE that goes on at the instruction level has an aligned address (R65, D13). -/
theorem aligned_of_archExec {cfg : Config} {m n : Arch} {i : Instr} (h : archExec cfg i m = .next n)
    (ho : i.opcode = .load ∨ i.opcode = .store) : aligned (archResult m i) = true := by
  by_contra ha
  rw [archExec_eq_refused cfg ho (by simpa using ha)] at h
  cases h

/-! ### One instruction alone -/

theorem Drained.holds {s : State} (h : Drained s) : Holds s s.slotF.cmd .emptyNop .emptyNop .emptyNop .emptyNop :=
  ⟨rfl, by rw [h.decodeEmpty, empty_cmd], by rw [h.executeEmpty, empty_cmd], by rw [h.memoryEmpty, empty_cmd],
    by rw [h.writeBackEmpty, empty_cmd]⟩

/-- A drained pipeline holds no operand values. -/
theorem Drained.coherent {s : State} (h : Drained s) : Coherent s :=
  coherent_of_advanced h.advancing fun hn => absurd (h.executeEmpty ▸ emptyNop_opcode) hn

/-- The first two ticks bring the instruction to Execute and complete nothing. -/
theorem Drained.reaches_execute {s : State} (h : Drained s) (hi : Inv s) {n : Nat}
    (hn : NopsFrom s (s.pc + 4) (n + 2)) :
    ∃ t, RunsTo 2 s t ∧ Inv t ∧ Coherent t ∧ Holds t .emptyNop .emptyNop s.slotF.cmd .emptyNop .emptyNop ∧
      archAt t = { pc := s.pc, regs := s.regs, dmem := s.dmem } ∧ t.pc = s.pc + 4 + 4 ∧ NopsFrom t (t.pc + 4) n := by
  obtain ⟨u, hu, fu, ku, Hu, nu⟩ := h.holds.shift_nop hi rfl hn
  have iu := step_keeps_inv hi hu
  obtain ⟨t, ht, ft, kt, Ht, nt⟩ := Hu.shift_nop iu rfl nu
  refine ⟨t, ⟨u, hu, t, ht, rfl⟩, step_keeps_inv iu ht,
    step_keeps_coherent iu (step_keeps_coherent hi h.coherent hu) ht, Ht, ?_, by rw [kt.pc, ku.pc], nt⟩
  have hipc : t.slotE.ipc = s.pc := by rw [kt.slotE, decodeSlot_ipc, ku.slotD, hi.pcIsFetchAddress]
  have hregs : t.regs = s.regs := by rw [ft.regs, Hu.retires_nothing, fu.regs, h.holds.retires_nothing]
  have hdmem : t.dmem = s.dmem := by
    rw [ft.dmem, completedDmem, Hu.memory, fu.dmem, completedDmem, h.holds.memory]; rfl
  rw [Ht.archAt_eq, hipc, hregs, hdmem]

/-- The third tick leaves in Memory, with its latches, the instruction that the instruction level executes. -/
theorem Holds.executes {s : State} {i : Instr} {m : Arch} (h : Holds s .emptyNop .emptyNop i .emptyNop .emptyNop)
    (hi : Inv s) (hc : Coherent s) (hexec : archExec s.cfg i (archAt s) = .next m) {n : Nat}
    (hn : NopsFrom s (s.pc + 4) (n + 1)) :
    ∃ t, step s = .next t ∧ Inv t ∧ Holds t .emptyNop .emptyNop .emptyNop i .emptyNop ∧
      (i.opcode = .load ∨ i.opcode = .store → aligned t.memRes = true) ∧ m = archAfter s t ∧
      t.memTaken = archTaken (archAt s) i ∧ t.pc = s.pc + 4 ∧ NopsFrom t (t.pc + 4) n := by
  obtain ⟨t, ht, f, k, H, nt⟩ := h.shift_nop hi (hazardBetween_emptyNop_right _) hn
  obtain rfl := h.execute
  have hres : t.memRes = archResult (archAt s) s.slotE.cmd :=
    k.memRes.trans (exResAt_eq_archResult hi hc h.noStoreBaseHazard)
  have haligned := fun ho => hres ▸ aligned_of_archExec hexec ho
  have hgo := k.archExec_eq f hi hc h.noStoreBaseHazard haligned
  exact ⟨t, ht, step_keeps_inv hi ht, H, haligned, Host.Outcome.next.inj (hexec.symm.trans hgo),
    k.memTaken.trans (exTakenAt_eq_archTaken hi hc), k.pc, nt⟩

/-- The instruction level goes on where the advance fetches, or the instruction falls through (R165, R258). -/
theorem nextPc_eq_archAfter (s t : State) : nextPc t = if t.memTaken then (archAfter s t).pc else t.pc + 4 := by
  cases h : t.memTaken <;> simp [nextPc, archAfter, h]

/-- The last two ticks take the instruction through Memory and Write-Back and complete what its latches hold. -/
theorem Holds.completes {s : State} {i : Instr} (h : Holds s .emptyNop .emptyNop .emptyNop i .emptyNop) (hi : Inv s)
    (ha : i.opcode = .load ∨ i.opcode = .store → aligned s.memRes = true)
    (hr : i.opcode = .load → ready s (s.tick + 1) = true) (hn : NopsFrom s (nextPc s) 2) :
    ∃ t, RunsTo 2 s t ∧ t.regs = completedRegs s ∧ t.dmem = completedDmem s ∧ t.pc = nextPc s + 4 := by
  obtain ⟨u, hu, fu, au, Hu, pu, nu⟩ := h.leave_memory hi ha hr hn
  obtain ⟨t, ht, ft, kt, -, -⟩ := Hu.shift_nop (step_keeps_inv hi hu) rfl nu
  refine ⟨t, ⟨u, hu, t, ht, rfl⟩, ft.regs.trans (au.retires_completedRegs fu), ?_, by rw [kt.pc, pu]⟩
  rw [ft.dmem, completedDmem, Hu.memory, fu.dmem]; rfl

/-- Settles O44: two ticks to Execute, the tick that completes the instruction as the instruction level says, and two
ticks through Memory and Write-Back. -/
theorem loneInstructionCompletesInFiveTicks : Obligations.LoneInstructionCompletesInFiveTicks := by
  intro s m hi hd hexec hbehind htarget hready
  obtain ⟨u, hu, iu, cu, Hu, harch, pu, nu⟩ := hd.reaches_execute hi hbehind
  rw [← harch, ← hu.runFrame.cfg] at hexec
  obtain ⟨v, hv, iv, Hv, haligned, rfl, htaken, pv, nv⟩ := Hu.executes iu cu hexec nu
  have hrun : RunsTo 3 s v := runsTo_add (k := 1) hu ⟨v, hv, rfl⟩
  have frame := hrun.runFrame
  have hnext := nextPc_eq_archAfter u v
  have hnops : NopsFrom v (nextPc v) 2 := by
    rw [hnext]
    split
    · rwa [nopsFrom_congr frame.ifetch]
    · exact nv
  obtain ⟨t, ht, hregs, hdmem, hpc⟩ := Hv.completes iv haligned
    (fun _ => by rw [frame.ready, frame.tick]; exact hready) hnops
  refine ⟨t, runsTo_add hrun ht, hregs, hdmem, ?_⟩
  rw [hpc, hnext, htaken, harch, pv, pu]
  split
  · rfl
  · bv_omega

end Sys2Proof.Machine
end

section
/-! SUPPORT. LOAD and STORE outside LOAD's Memory stage (R140 to R144): the address in Execute, the register that LOAD
alone writes in Write-Back, and STORE's port call in Memory (R187), of which the memory laws say what is read after. -/

namespace Sys2Proof.Machine

/-! ### The address in Execute, the register in Write-Back (R142, R144) -/

/-- Settles O12, by stage: R185's address from `src1` in Execute, `WBval` into the register in Write-Back. -/
theorem loadFormsAddressAndWritesItsRegister : Obligations.LoadFormsAddressAndWritesItsRegister :=
  fun _ _ _ _ _ =>
    ⟨fun h => ⟨exec_at_execute _ h, exec_at_execute _ h⟩,
      fun h => ⟨exec_at_writeBack _ h, exec_at_writeBack _ h⟩⟩

/-- Settles O14, by stage: R185's address from `dst`, patched for STORE too, in Execute; nothing in Write-Back. -/
theorem storeFormsAddressFromItsDstRegister : Obligations.StoreFormsAddressFromItsDstRegister :=
  fun _ _ _ _ _ =>
    ⟨fun h => ⟨exec_at_execute _ h, exec_at_execute _ h⟩,
      fun h => ⟨exec_at_writeBack _ h, exec_at_writeBack _ h⟩⟩

/-! ### STORE's port call (R187, R65) -/

/-- STORE's Memory compute is its port call and nothing else (R187). -/
theorem exec_store_at_memory {i : Instr} {s : State} (ho : i.opcode = .store) (h : s.stage = .memory) :
    exec i s = storeAccess s := by
  simp [exec_at_memory i h, ho]

/-- A STORE to an address that is not a multiple of 4 is refused (R65, D13). -/
theorem storeAccess_of_misaligned {s : State} (h : aligned s.memRes = false) :
    storeAccess s = .refused .misalignedDataAddress :=
  if_neg (by simp [h])

/-- Settles O15, by the alignment of `MEMres`: the memory after the call is the one with the word written, of which
`readWord_writeWord_same` and `readByte_writeWord` give the word and every byte outside it. -/
theorem storeWritesItsWordAndNothingElse : Obligations.StoreWritesItsWordAndNothingElse := by
  intro i s ho hs
  rw [exec_store_at_memory ho hs]
  refine ⟨fun ha hw => ⟨writeWord s.dmem s.memRes s.slotM.src1Val, ?call, ?word, ?elsewhere⟩, storeAccess_of_misaligned⟩
  case call => exact storeAccess_eq_next.2 ⟨ha, rfl⟩
  case word => exact readWord_writeWord_same hw ha
  case elsewhere => exact fun a hout => (readByte_writeWord hw ha a).trans (if_neg hout)

end Sys2Proof.Machine
end

section
/-! SUPPORT. BR, BREQ and BRNEQ stage by stage (R160 to R163): one law of Execute for every branch, whose opcodes differ
in the taken flag alone, and the two stages in which a branch does nothing (R188, R190). -/

namespace Sys2Proof.Machine

/-- Execute compute of a branch: the target is formed of the patched `dst` value, taken or not (R163, R185). -/
theorem exec_branch_at_execute {i : Instr} {s : State} {taken : Bool} (hb : isBranch i.opcode = true)
    (h : s.stage = .execute)
    (ht : exTakenOf i.opcode (patched i s).slotE.src1Val (patched i s).slotE.src2Val = taken) :
    exec i s = .next (latchEx 0 taken (branchTarget (patched i s)) (patched i s)) := by
  have hres (a b d : Word) : exResultOf i.opcode a b d = 0 := by
    cases ho : i.opcode <;> simp [ho, isBranch, exResultOf] at hb ⊢
  rw [exec_at_execute i h, hres, ht, exTargetOf, if_pos hb]
  rfl

/-- A branch accesses no data memory (R188). -/
theorem exec_branch_at_memory {i : Instr} {s : State} (hb : isBranch i.opcode = true) (h : s.stage = .memory) :
    exec i s = .next s := by
  rw [exec_at_memory i h]
  cases ho : i.opcode <;> simp [ho, isBranch] at hb ⊢

/-- A branch writes no register (R190). -/
theorem exec_branch_at_writeBack {i : Instr} {s : State} (hb : isBranch i.opcode = true) (h : s.stage = .writeBack) :
    exec i s = .next s := by
  rw [exec_at_writeBack i h]
  cases ho : i.opcode <;> simp [ho, isBranch, writesRegister] at hb ⊢

/-- BREQ's flag is equality on all 32 bits (R161). -/
theorem exTakenOf_breq (a b : Word) : exTakenOf .breq a b = decide (a = b) := beq_eq_decide a b

/-- BRNEQ's flag is its negation (R162). -/
theorem exTakenOf_brneq (a b : Word) : exTakenOf .brneq a b = decide (a ≠ b) := by
  simp [exTakenOf, bne, beq_eq_decide]

/-- Settles O16, by stage: R185's row of BR in Execute, where the flag is constantly true; nothing in Memory and
Write-Back. -/
theorem brIsAlwaysTaken : Obligations.BrIsAlwaysTaken :=
  fun _ _ _ _ _ =>
    ⟨fun h => ⟨exec_branch_at_execute rfl h rfl, exec_branch_at_execute rfl h rfl⟩,
      fun h => ⟨exec_branch_at_memory rfl h, exec_branch_at_memory rfl h⟩,
      fun h => ⟨exec_branch_at_writeBack rfl h, exec_branch_at_writeBack rfl h⟩⟩

/-- Settles O17, by stage: the flag in Execute is `exTakenOf_breq`; nothing in Memory and Write-Back. -/
theorem breqIsTakenIffEqual : Obligations.BreqIsTakenIffEqual :=
  fun _ _ _ _ _ =>
    ⟨fun h => ⟨exec_branch_at_execute rfl h (exTakenOf_breq _ _), exec_branch_at_execute rfl h (exTakenOf_breq _ _)⟩,
      fun h => ⟨exec_branch_at_memory rfl h, exec_branch_at_memory rfl h⟩,
      fun h => ⟨exec_branch_at_writeBack rfl h, exec_branch_at_writeBack rfl h⟩⟩

/-- Settles O18, by stage: the flag in Execute is `exTakenOf_brneq`; nothing in Memory and Write-Back. -/
theorem brneqIsTakenIffDifferent : Obligations.BrneqIsTakenIffDifferent :=
  fun _ _ _ _ _ =>
    ⟨fun h => ⟨exec_branch_at_execute rfl h (exTakenOf_brneq _ _), exec_branch_at_execute rfl h (exTakenOf_brneq _ _)⟩,
      fun h => ⟨exec_branch_at_memory rfl h, exec_branch_at_memory rfl h⟩,
      fun h => ⟨exec_branch_at_writeBack rfl h, exec_branch_at_writeBack rfl h⟩⟩

end Sys2Proof.Machine
end

section
/-! SUPPORT. The stage processors: Fetch and Decode compute of every instruction (R182, R183), LOAD's port call in
Memory (R186), and what Decode reads in the tick that Write-Back writes (R181, R191). -/

namespace Sys2Proof.Machine

/-! ### What Execute holds after a tick (R143, R191, R225) -/

/-- Settles O42, by the kind of tick: a stalled tick forwards Write-Back's value and writes it to the register file, a
shift brings what Decode resolved, and a bubble or a flush leaves a NOP (`step_keeps_coherent`). -/
theorem everyTickKeepsOperandsCoherent : Obligations.EveryTickKeepsOperandsCoherent :=
  fun _ _ => step_keeps_coherent

/-- Decode compute of a tick that is no retry reads the register file the tick leaves (R191). -/
theorem TickFrame.computed_decodeSlot_holdsOperands {s t : State} (f : TickFrame s t) (ha : s.canAdvance = true) :
    HoldsOperands t (decodeSlot s) := by
  constructor <;> simp [decodeSlot, ha, f.readReg_eq]

/-- After the tick the register that Write-Back writes holds `WBval` (R190). -/
theorem TickFrame.readReg_written {s t : State} (f : TickFrame s t)
    (hw : writesRegister s.slotW.cmd.opcode = true) : readReg t s.slotW.cmd.dstIndex = s.wbVal := by
  rw [f.readReg_eq, readReg_retiredState, if_pos ⟨hw, rfl⟩]

/-- Settles O35: Write-Back's register holds its value, Decode reads the same register file, and a shift moves what
Decode read into Execute. -/
theorem decodeReadsWhatWriteBackWrites : Obligations.DecodeReadsWhatWriteBackWrites := by
  intro s t h ha hw
  obtain ⟨f, k⟩ := step_kinds h
  have hwritten := f.readReg_written hw
  refine ⟨hwritten, fun hadv hp ht => ?_⟩
  have hE := (k.shiftTick hadv hp ht).slotE
  obtain ⟨h1, h2, h3⟩ := f.computed_decodeSlot_holdsOperands ha
  rw [decodeSlot_cmd] at h1 h2 h3
  refine ⟨fun hr => ?src1, fun hm hr => ?src2, fun hr => ?dst⟩
  case src1 => rw [hE, h1, hr, hwritten]
  case src2 => rw [hE, h2, hm, if_neg Bool.false_ne_true, hr, hwritten]
  case dst => rw [hE, h3, hr, hwritten]

/-! ### Fetch and Decode compute of every instruction (R182, R183) -/

/-- Settles O7: the operands resolved from the Command's own fields, whatever its opcode. -/
theorem decodeStageResolvesEveryInstruction : Obligations.DecodeStageResolvesEveryInstruction :=
  fun i _ hs => exec_at_decode i hs

/-- Settles O8: the fetch itself is the advance phase's (R261), so the compute step of the stage leaves the state. -/
theorem fetchStageChangesNothing : Obligations.FetchStageChangesNothing :=
  fun i _ hs => exec_at_fetch i hs

/-! ### LOAD's port call (R186, R65) -/

/-- LOAD's Memory compute is its port call and nothing else (R186). -/
theorem exec_load_at_memory {i : Instr} {s : State} (ho : i.opcode = .load) (h : s.stage = .memory) :
    exec i s = loadAccess s := by
  rw [exec_at_memory i h, if_pos ho]

/-- A LOAD from an address that is not a multiple of 4 is refused (R65, D13). -/
theorem loadAccess_of_misaligned {s : State} (h : aligned s.memRes = false) :
    loadAccess s = .refused .misalignedDataAddress := by
  simp [loadAccess, dread, h]

/-- Settles O13, by the answer of the port: the two ways in which the call goes on, and the refusal. -/
theorem loadReadsOrHoldsThePipeline : Obligations.LoadReadsOrHoldsThePipeline := by
  intro i s ho hs
  rw [exec_load_at_memory ho hs]
  refine ⟨fun ha hr => ?ready, fun ha hr => ?notReady, loadAccess_of_misaligned⟩
  case ready => exact loadAccess_eq_next.2 ⟨ha, .inl ⟨hr, rfl⟩⟩
  case notReady => exact loadAccess_eq_next.2 ⟨ha, .inr ⟨hr, rfl⟩⟩

end Sys2Proof.Machine
end

section
/-! SUPPORT. The Forwarding Unit and the Hazard Detection Unit (R220 to R233): the opcodes that each of their
classifiers names, the three answers of `forward`, and the two arms of the load-use pair. -/

namespace Sys2Proof.Machine

/-! ### The opcodes of each classifier (R221, R230) -/

theorem tier1Writer_iff (op : Opcode) : tier1Writer op = true ↔ op = .add ∨ op = .sub := by
  cases op <;> decide

theorem writesRegister_iff_opcode (op : Opcode) :
    writesRegister op = true ↔ op = .add ∨ op = .sub ∨ op = .load := by
  rw [writesRegister_iff, tier1Writer_iff, or_assoc]

theorem readsSources_iff (op : Opcode) : readsSources op = true ↔ op ≠ .nop ∧ op ≠ .br := by
  cases op <;> decide

theorem isBranch_iff (op : Opcode) : isBranch op = true ↔ op = .br ∨ op = .breq ∨ op = .brneq := by
  cases op <;> decide

/-! ### The answers of `forward` (R221) -/

section Forward
variable {s : State} {idx : RegIdx} (old : Word)

theorem forward_of_tier1 (hm : tier1Writer s.slotM.cmd.opcode = true ∧ s.slotM.cmd.dstIndex = idx) :
    forward s idx old = s.memRes := by
  simp [forward, hm]

theorem forward_of_tier2 (hm : ¬(tier1Writer s.slotM.cmd.opcode = true ∧ s.slotM.cmd.dstIndex = idx))
    (hw : writesRegister s.slotW.cmd.opcode = true ∧ s.slotW.cmd.dstIndex = idx) : forward s idx old = s.wbVal := by
  simp [forward, hm, hw]

theorem forward_of_no_writer (hm : ¬(tier1Writer s.slotM.cmd.opcode = true ∧ s.slotM.cmd.dstIndex = idx))
    (hw : ¬(writesRegister s.slotW.cmd.opcode = true ∧ s.slotW.cmd.dstIndex = idx)) : forward s idx old = old := by
  simp [forward, hm, hw]

end Forward

/-- Settles O19, by the tier that answers; the classifiers name the opcodes of R221. -/
theorem forwardingTakesTheYoungestWriter : Obligations.ForwardingTakesTheYoungestWriter := by
  intro s idx old
  simp only [← tier1Writer_iff, ← writesRegister_iff_opcode]
  exact ⟨forward_of_tier1 old, fun hm => ⟨forward_of_tier2 old hm, forward_of_no_writer old hm⟩⟩

/-! ### The load-use pair (R230) -/

/-- The predicate's two arms: a source that counts as read, and the register of a branch target. -/
theorem hazardBetween_iff (e d : Instr) : hazardBetween e d = true ↔
    e.opcode = .load ∧
      ((readsSources d.opcode = true ∧
          (d.src1Index = e.dstIndex ∨ (d.isSrc2Immediate = false ∧ d.src2Index = e.dstIndex))) ∨
        (isBranch d.opcode = true ∧ d.dstIndex = e.dstIndex)) := by
  simp only [hazardBetween, Bool.and_eq_true, Bool.or_eq_true, Bool.not_eq_true', beq_iff_eq]

/-- Settles O20: the two arms of the predicate, with the opcodes that R230 names for each. -/
theorem hazardIsTheLoadUsePair : Obligations.HazardIsTheLoadUsePair := by
  intro e d
  rw [hazardBetween_iff, readsSources_iff, isBranch_iff, and_assoc]

end Sys2Proof.Machine
end

section
/-! SUPPORT. The Tick Controller (spec/47_tick_controller.md R250 to R266): the compute steps of a step in order, the
two paths of the advance phase, what each kind of tick moves, that a tick with defined inputs goes on, stalls of
any length, and the invariants at `reset()` and after every tick. -/

namespace Sys2Proof.Machine

/-! ### Every tick keeps the invariants (R269) -/

/-- Settles O41, by the kind of tick (`step_keeps_inv`). -/
theorem everyTickKeepsTheInvariant : Obligations.EveryTickKeepsTheInvariant := fun _ _ => step_keeps_inv

/-! ### The compute steps in order (R266), and the advance phase (R255) -/

/-- Settles O22: each compute step in turn answers the state that the next begins with. -/
theorem stepRunsTheOccupantsOfTheSlots : Obligations.StepRunsTheOccupantsOfTheSlots := by
  intro s t u v w x hW
  have hstep : step s = andThen (if s.canAdvance then computeAll t else computeRetry t) finishTick := by
    rw [step, tickOnce, computeStage, slotOf_writeBack, beginTick_slotW, hW, andThen_next]
  refine ⟨fun ha hM hE hD hF => ?_, fun ha hM => ?_⟩
  · have hall : computeAll t = .next x := by
      simp only [computeAll, computeStage, slotOf_memory, setCanAdvance_slotM, hM, andThen_next, slotOf_execute, hE,
        slotOf_decode, hD, slotOf_fetch, hF]
    rw [hstep, if_pos ha, hall, andThen_next]
  · have hretry : computeRetry t = .next u := hM
    rw [hstep, if_neg (by simp [ha]), hretry, andThen_next]

theorem advance_of_bubble {s : State} (h : s.hazardPending = true ∧ s.memTaken = false) :
    advance s = .next (bubbleAdvance s) := by
  rw [advance, if_pos (by simp [h])]

theorem advance_of_normal {s : State} (h : ¬(s.hazardPending = true ∧ s.memTaken = false)) :
    advance s = normalAdvance s := by
  rw [advance, if_neg (by simpa using h)]

/-- Settles O26: the test of the advance phase is the bubble's condition. -/
theorem advanceTakesOneOfTwoPaths : Obligations.AdvanceTakesOneOfTwoPaths := fun _ =>
  ⟨advance_of_bubble, advance_of_normal⟩

/-! ### The kind of a tick, from how it ends (R254, R255) -/

namespace TickKind
variable {s t : State} (k : TickKind s t)
include k

theorem advancedTick (ha : t.canAdvance = true) : AdvancedTick s t := by
  cases k with
  | stalled k => exact absurd (k.canAdvance.symm.trans ha) (by decide)
  | bubble k => exact k.toAdvancedTick
  | shift k => exact k.toAdvancedTick
  | flush k => exact k.toAdvancedTick

theorem bubbleTick (ha : t.canAdvance = true) (hp : s.hazardPending = true) (ht : s.memTaken = false) :
    BubbleTick s t := by
  cases k with
  | bubble k => exact k
  | stalled k => simp [k.canAdvance] at ha
  | shift k => simp [k.notPending] at hp
  | flush k => simp [k.taken] at ht

theorem flushTick (ha : t.canAdvance = true) (ht : s.memTaken = true) : FlushTick s t := by
  cases k with
  | flush k => exact k
  | stalled k => simp [k.canAdvance] at ha
  | bubble k => simp [k.notTaken] at ht
  | shift k => simp [k.notTaken] at ht

/-- A tick stalls iff the read of a LOAD in Memory is not ready (R28). -/
theorem canAdvance_eq_false_iff :
    t.canAdvance = false ↔ s.slotM.cmd.opcode = .load ∧ ready s (s.tick + 1) = false :=
  ⟨fun ha => ⟨(k.stalledTick ha).load, (k.stalledTick ha).notReady⟩,
    fun h => (k.stalledTick_of_notReady h).canAdvance⟩

/-- An advance that is no bubble leaves the predicate on the new occupants in the flag (R262). -/
theorem hazardPending_recomputed (ha : t.canAdvance = true) (hn : ¬(s.hazardPending = true ∧ s.memTaken = false)) :
    t.hazardPending = hazardBetween t.slotE.cmd t.slotD.cmd := by
  cases k with
  | stalled k => simp [k.canAdvance] at ha
  | bubble k => exact absurd ⟨k.pending, k.notTaken⟩ hn
  | shift k => rw [k.hazardPending, k.slotE, k.slotD, decodeSlot_cmd]
  | flush k => rw [k.hazardPending, k.slotE]; rfl

end TickKind

/-! ### What an advance moves (R256 to R262) -/

/-- The value that enters Write-Back: a LOAD's own latch, else `MEMres` (R259). -/
theorem AdvancedTick.wbVal_eq {s t : State} (k : AdvancedTick s t) :
    t.wbVal = if s.slotM.cmd.opcode = .load then t.memLoad else s.memRes := by
  rw [k.wbVal, k.memLoad, memResult]
  split_ifs <;> rfl

/-- The occupant of Execute enters Memory with the operands and latches the tick computed or kept (R256, R259). -/
theorem MovedOn.executeMovedToMemory {s t : State} (k : MovedOn s t) : ExecuteMovedToMemory s t where
  cmd := by rw [k.slotM, executeSlot_cmd]
  ipc := by rw [k.slotM, executeSlot_ipc]
  src1Val := by rw [k.slotM]; rfl
  src2Val := by
    rw [k.slotM]
    cases hm : s.slotE.cmd.isSrc2Immediate <;> simp [executeSlot, operandAt, hm]
  dstVal := by
    rw [k.slotM]
    cases hd : readsDst s.slotE.cmd.opcode <;> simp [executeSlot, operandAt, hd]
  memRes := by rw [k.slotM, k.memRes]; rfl
  memTaken := by rw [k.slotM, k.memTaken]; rfl
  memTarget := by rw [k.slotM, k.memTarget]; rfl

/-- Settles O25: a shift or a flush recomputes the flag. -/
theorem normalAdvanceRecomputesTheHazard : Obligations.NormalAdvanceRecomputesTheHazard := fun _ _ h =>
  (step_kinds h).2.hazardPending_recomputed

/-- Settles O27: the tick is a shift. -/
theorem normalTickShiftsEverySlot : Obligations.NormalTickShiftsEverySlot := by
  intro s t h ha hp ht
  have kind := (step_kinds h).2
  have k := kind.shiftTick ha hp ht
  have hz := kind.hazardPending_recomputed ha (by simp [hp])
  refine ⟨k.slotW, k.executeMovedToMemory, ?_, ?_, k.slotD, k.fetched, k.slotF, hz, k.wbVal_eq⟩
  · rw [k.slotE, decodeSlot_cmd]
  · rw [k.slotE, decodeSlot_ipc]

/-- Settles O28: the tick is a flush. -/
theorem flushTickDiscardsThreeInstructions : Obligations.FlushTickDiscardsThreeInstructions := by
  intro s t h ha ht
  have k := (step_kinds h).2.flushTick ha ht
  exact ⟨k.pc, k.fetched, k.slotF, k.slotD, k.slotE, k.slotM, k.slotW, k.memTaken, k.hazardPending⟩

/-- Settles O29: the tick is a bubble. -/
theorem bubbleTickMovesDownstreamOnly : Obligations.BubbleTickMovesDownstreamOnly := by
  intro s t h ha hp ht
  have k := (step_kinds h).2.bubbleTick ha hp ht
  refine ⟨k.pc, k.slotF, ?_, ?_, k.slotE, k.executeMovedToMemory, k.slotW, k.wbVal_eq, k.hazardPending, k.exRes,
    k.exTaken, k.exTarget⟩
  · rw [k.slotD, decodeSlot_cmd]
  · rw [k.slotD, decodeSlot_ipc]

/-- Settles O31: the read is answered, so the tick advances and takes its value. -/
theorem readyReadAdvancesInItsOwnTick : Obligations.ReadyReadAdvancesInItsOwnTick := by
  intro s t h hl hr
  have kind := (step_kinds h).2
  have ha : t.canAdvance = true := by
    rw [← Bool.not_eq_false, kind.canAdvance_eq_false_iff]
    simp [hr]
  have k := kind.advancedTick ha
  exact ⟨ha, k.slotW, k.memLoad.trans (if_pos hl), k.wbVal.trans (if_pos hl)⟩

/-! ### What a stalled tick keeps (R253, R264) -/

/-- A LOAD in Memory writes no data memory. -/
theorem StalledTick.dmem {s t : State} (k : StalledTick s t) (f : TickFrame s t) : t.dmem = s.dmem := by
  rw [f.dmem, completedDmem, k.load]; rfl

/-- Settles O30: a tick stalls iff its read is not ready, and is then a stalled one. -/
theorem stalledTickMovesNothing : Obligations.StalledTickMovesNothing := by
  intro s t h
  obtain ⟨f, kind⟩ := step_kinds h
  refine ⟨kind.canAdvance_eq_false_iff, fun ha => ?_⟩
  have k := kind.stalledTick ha
  refine ⟨k.pc, k.slotF, ?_, ?_, ?_, ?_, k.slotM, k.memRes, k.memTaken, k.memTarget, k.memLoad, k.wbVal,
    k.hazardPending, k.dmem f, k.slotW⟩
  · rw [k.slotD, decodeSlot_cmd]
  · rw [k.slotD, decodeSlot_ipc]
  · rw [k.slotE, executeSlot_cmd]
  · rw [k.slotE, executeSlot_ipc]

/-! ### A tick goes on (R268, R290) -/

theorem finishTick_of_stalled {s : State} (h : s.canAdvance = false) : finishTick s = .next (atStage .fetch s) := by
  simp [finishTick, h]

theorem finishTick_of_bubble {s : State} (ha : s.canAdvance = true)
    (h : s.hazardPending = true ∧ s.memTaken = false) :
    finishTick s = .next (atStage .fetch (bubbleAdvance s)) := by
  rw [finishTick, if_pos ha, advance_of_bubble h, andThen_next]

/-- A tick that ends without a fetch, stalled or with a bubble, goes on whatever stands in instruction memory. -/
theorem step_goes_on_without_fetch {s : State}
    (ha : s.slotM.cmd.opcode = .load ∨ s.slotM.cmd.opcode = .store → aligned s.memRes = true)
    (h : (s.slotM.cmd.opcode = .load ∧ ready s (s.tick + 1) = false) ∨
      (s.hazardPending = true ∧ s.memTaken = false)) : ∃ t, step s = .next t := by
  obtain ⟨u, hu⟩ := memoryOut_goes_on (s := beforeMemory s) (by simpa using ha)
  have m := memoryDone_of_memoryOut hu
  have hstep : step s = finishTick (beforeFinish s u) := by rw [step_eq, hu, andThen_next, beforeFinish]
  rw [hstep]
  cases hadv : (beforeFinish s u).canAdvance
  · exact ⟨_, finishTick_of_stalled hadv⟩
  · have hr := m.canAdvance_iff.1 (by rwa [beforeFinish_canAdvance] at hadv)
    have hb := h.resolve_left fun ⟨hl, hn⟩ => by simp [hr hl] at hn
    exact ⟨_, finishTick_of_bubble hadv (by simpa [m.hazardPending, m.memTaken] using hb)⟩

/-- Settles O36: a normal advance fetches the Command it is given, and no other tick fetches. -/
theorem tickGoesOnWithoutUndefinedInputs : Obligations.TickGoesOnWithoutUndefinedInputs := by
  intro s ha hf
  by_cases h : (s.slotM.cmd.opcode = .load ∧ ready s (s.tick + 1) = false) ∨
      (s.hazardPending = true ∧ s.memTaken = false)
  · exact step_goes_on_without_fetch ha h
  · obtain ⟨hr, hn⟩ := not_or.1 h
    obtain ⟨c, hc⟩ := hf hr hn
    obtain ⟨v, hv, hstep⟩ := step_eq_fetch ha hr hn
    rw [fetch_eq_next.2 ⟨c, hv.trans hc, rfl⟩] at hstep
    exact ⟨_, hstep⟩

/-! ### A stall of any length (R264) -/

/-- What a retry tick that stalls leaves as it was: everything but `slot[W]`, the registers and the tick's own number
and calls. -/
structure Frozen (s t : State) : Prop where
  canAdvance : t.canAdvance = s.canAdvance
  pc : t.pc = s.pc
  slotF : t.slotF = s.slotF
  slotD : t.slotD = s.slotD
  slotE : t.slotE = s.slotE
  slotM : t.slotM = s.slotM
  exRes : t.exRes = s.exRes
  exTaken : t.exTaken = s.exTaken
  exTarget : t.exTarget = s.exTarget
  memRes : t.memRes = s.memRes
  memTaken : t.memTaken = s.memTaken
  memTarget : t.memTarget = s.memTarget
  memLoad : t.memLoad = s.memLoad
  wbVal : t.wbVal = s.wbVal
  hazardPending : t.hazardPending = s.hazardPending
  dmem : t.dmem = s.dmem

theorem Frozen.refl (s : State) : Frozen s s := by constructor <;> rfl

theorem Frozen.trans {s t u : State} (h : Frozen s t) (h' : Frozen t u) : Frozen s u where
  canAdvance := h'.canAdvance.trans h.canAdvance
  pc := h'.pc.trans h.pc
  slotF := h'.slotF.trans h.slotF
  slotD := h'.slotD.trans h.slotD
  slotE := h'.slotE.trans h.slotE
  slotM := h'.slotM.trans h.slotM
  exRes := h'.exRes.trans h.exRes
  exTaken := h'.exTaken.trans h.exTaken
  exTarget := h'.exTarget.trans h.exTarget
  memRes := h'.memRes.trans h.memRes
  memTaken := h'.memTaken.trans h.memTaken
  memTarget := h'.memTarget.trans h.memTarget
  memLoad := h'.memLoad.trans h.memLoad
  wbVal := h'.wbVal.trans h.wbVal
  hazardPending := h'.hazardPending.trans h.hazardPending
  dmem := h'.dmem.trans h.dmem

/-- A stalled retry tick freezes the pipeline: it computes nothing in Execute and Decode (R253). -/
theorem StalledTick.frozen {s t : State} (k : StalledTick s t) (f : TickFrame s t) (h : s.canAdvance = false) :
    Frozen s t where
  canAdvance := k.canAdvance.trans h.symm
  pc := k.pc
  slotF := k.slotF
  slotD := k.slotD.trans (decodeSlot_of_stalled h)
  slotE := k.slotE.trans (executeSlot_of_stalled h)
  slotM := k.slotM
  exRes := by simp [k.exRes, exResAt, h]
  exTaken := by simp [k.exTaken, exTakenAt, h]
  exTarget := by simp [k.exTarget, exTargetAt, h]
  memRes := k.memRes
  memTaken := k.memTaken
  memTarget := k.memTarget
  memLoad := k.memLoad
  wbVal := k.wbVal
  hazardPending := k.hazardPending
  dmem := k.dmem f

/-- One more retry tick whose read is not ready (R253, R254). -/
theorem step_retries {s : State} (h : s.canAdvance = false) (hl : s.slotM.cmd.opcode = .load)
    (ha : aligned s.memRes = true) (hr : ready s (s.tick + 1) = false) :
    ∃ t, step s = .next t ∧ Frozen s t ∧ t.slotW = Slot.empty ∧ t.calls = [.dread s.memRes none] := by
  obtain ⟨t, ht⟩ := step_goes_on_without_fetch (fun _ => ha) (.inl ⟨hl, hr⟩)
  obtain ⟨f, kind⟩ := step_kinds ht
  have k := kind.stalledTick_of_notReady ⟨hl, hr⟩
  exact ⟨t, ht, k.frozen f h, by simp [k.slotW, h], by simp [k.calls, memoryCalls, hl, hr]⟩

/-- `k` retry ticks whose reads are not ready, by induction on `k`: the last begins with the pipeline as it was. -/
theorem stall_frozen (k : Nat) {s : State} (h : s.canAdvance = false) (hl : s.slotM.cmd.opcode = .load)
    (ha : aligned s.memRes = true) (hr : ∀ j, j < k → ready s (s.tick + j + 1) = false) :
    ∃ t, RunsTo k s t ∧ Frozen s t ∧ (0 < k → t.slotW = Slot.empty ∧ t.calls = [.dread s.memRes none]) := by
  induction k with
  | zero => exact ⟨s, rfl, Frozen.refl s, fun h => absurd h (by decide)⟩
  | succ k ih =>
    obtain ⟨u, hu, fu, -⟩ := ih fun j hj => hr j (by omega)
    have frame := hu.runFrame
    obtain ⟨t, ht, ft, hw, hc⟩ := step_retries (s := u) (fu.canAdvance.trans h) (by rwa [fu.slotM])
      (by rwa [fu.memRes]) (by rw [frame.ready, frame.tick]; exact hr k (by omega))
    exact ⟨t, runsTo_add hu ⟨t, ht, rfl⟩, fu.trans ft, fun _ => ⟨hw, by rw [hc, fu.memRes]⟩⟩

/-- Settles O39, by induction on the number of ticks (`stall_frozen`). -/
theorem stallOfAnyLengthFreezesThePipeline : Obligations.StallOfAnyLengthFreezesThePipeline := by
  intro k s h hl ha hr
  obtain ⟨t, hrun, f, hlast⟩ := stall_frozen k h hl ha hr
  exact ⟨t, hrun, f.canAdvance.trans h, f.pc, f.slotF, f.slotD, f.slotE, f.slotM, f.exRes, f.exTaken, f.exTarget,
    f.memRes, f.memTaken, f.memTarget, f.memLoad, f.wbVal, f.hazardPending, f.dmem, hlast⟩

/-! ### The invariants at `reset()` (R37, R269) -/

namespace Drained
variable {s : State} (h : Drained s)
include h

/-- Behind nothing older the path begins at Fetch. -/
theorem nextAddress (hpc : s.pc = s.slotF.ipc) : NextAddress s s.pc := by
  rw [nextAddress_of_not_taken h.noTaken, h.executeEmpty, h.decodeEmpty]
  exact onPath_of_empty s s.pc hpc.symm

/-- A drained pipeline whose Fetch holds the Command at `pc` meets the invariants. -/
theorem inv (hpc : s.pc = s.slotF.ipc) (hf : ifetch s s.pc = .next s.slotF.cmd) (hcfg : s.cfg.wf = true)
    (hmem : Memory.wf s.dmem = true) (hstage : s.stage = .fetch) : Inv s where
  pcIsFetchAddress := hpc
  fetchedIsMemory := hf
  stallHasLoad ha := by simp [h.advancing] at ha
  stallKeepsEx ha := by simp [h.advancing] at ha
  pendingIsPredicate := by rw [h.noBubble, h.executeEmpty]; rfl
  loadUseSeparated := by rw [h.memoryEmpty]; rfl
  takenIsBranch ht := by simp [h.noTaken] at ht
  addressesFollow := ⟨s.pc, h.nextAddress hpc⟩
  parametersLegal := hcfg
  indicesLegal := by
    have h0 := emptyNop_indicesBelow hcfg
    rw [slotsBelow_iff, h.decodeEmpty, h.executeEmpty, h.memoryEmpty, h.writeBackEmpty]
    exact ⟨ifetch_indicesBelow hf, h0, h0, h0, h0⟩
  dmemCanonical := hmem
  stageRests := hstage

/-- The instruction level begins at `pc` with the registers and data memory as they stand (R12). -/
theorem agrees (hpc : s.pc = s.slotF.ipc) : Agrees s { pc := s.pc, regs := s.regs, dmem := s.dmem } where
  regs := congrArg Arch.regs h.holds.archAt_eq.symm
  dmem := congrArg Arch.dmem h.holds.archAt_eq.symm
  next := h.nextAddress hpc

end Drained

/-- `reset()` leaves the pipeline drained (R37). -/
theorem drained_startState (s : State) (c : Instr) : Drained (startState s c) := by constructor <;> rfl

/-- After `reset()` the invariants hold and the instruction level begins with the machine (R37, R38). -/
theorem coreReset_inv {s t : State} (hcfg : s.cfg.wf = true) (hmem : Memory.wf s.dmem = true)
    (h : coreReset s = .next t) : Inv t ∧ Coherent t ∧ Agrees t (archReset s) := by
  obtain ⟨c, hc, rfl⟩ := coreReset_eq_next.1 h
  have d := drained_startState s c
  exact ⟨d.inv rfl ((ifetch_zeroCore s _).trans hc) hcfg hmem rfl, d.coherent, d.agrees rfl⟩

/-- Settles O40: a reset leaves a drained pipeline, and the start state is what `reset()` makes of itself. -/
theorem resetSatisfiesTheInvariant : Obligations.ResetSatisfiesTheInvariant := by
  obtain ⟨hi, hc, -⟩ := coreReset_inv rfl rfl startStateIsReset
  exact ⟨fun s t => coreReset_inv, hi, hc⟩

end Sys2Proof.Machine
end

section
/-! SUPPORT. The one hazard software must respect (R326, C6): a STORE directly behind a LOAD of its base register. Tier 1
does not forward a LOAD (R224) and the load-use predicate does not cover a STORE's base (R232), so the base is the one
from before the LOAD; every other operand is the instruction level's. -/

namespace Sys2Proof.Machine

/-! ### No bubble, and the old base in Execute (R224, R232) -/

/-- Behind a LOAD in Memory only tier 2 forwards (R221, R224). -/
theorem forward_of_load_in_memory {s : State} (hl : s.slotM.cmd.opcode = .load) (idx : RegIdx) (old : Word) :
    forward s idx old =
      if writesRegister s.slotW.cmd.opcode = true ∧ s.slotW.cmd.dstIndex = idx then s.wbVal else old := by
  have hm : ¬(tier1Writer s.slotM.cmd.opcode = true ∧ s.slotM.cmd.dstIndex = idx) := by simp [hl, tier1Writer]
  split
  · exact forward_of_tier2 old hm ‹_›
  · exact forward_of_no_writer old hm ‹_›

/-- A STORE is no branch, so the predicate sees its data and its register offset and never its base (R230, R232). -/
theorem hazardBetween_store_eq_false {l t : Instr} (ht : t.opcode = .store) (h1 : t.src1Index ≠ l.dstIndex)
    (h2 : t.isSrc2Immediate = true ∨ t.src2Index ≠ l.dstIndex) : hazardBetween l t = false := by
  refine Bool.eq_false_iff.2 fun h => ?_
  obtain ⟨-, ⟨-, hsrc1 | ⟨hreg, hsrc2⟩⟩ | ⟨hbranch, -⟩⟩ := (hazardBetween_iff l t).1 h
  · exact h1 hsrc1
  · rcases h2 with himm | hne
    · simp [hreg] at himm
    · exact hne hsrc2
  · simp [ht, isBranch] at hbranch

/-- Execute compute of a STORE: its base goes through the Forwarding Unit (R185, R223). -/
theorem exec_store_at_execute {i : Instr} {s : State} (ho : i.opcode = .store) (h : s.stage = .execute) :
    ∃ t, exec i s = .next t ∧ t.exRes = forward s i.dstIndex s.slotE.dstVal + t.slotE.src2Val :=
  ⟨_, exec_at_execute i h, by simp [ho, exResultOf, patched, patchOperands, readsDst]⟩

/-- Settles O21: the predicate has no arm for the pair, and in Execute only tier 2 can patch the base. -/
theorem storeBehindLoadUsesTheOldBase : Obligations.StoreBehindLoadUsesTheOldBase := by
  refine ⟨fun l t _ => hazardBetween_store_eq_false, fun i s ho hs hl _ => ?_⟩
  obtain ⟨t, ht, hres⟩ := exec_store_at_execute ho hs
  exact ⟨t, ht, by rw [hres, forward_of_load_in_memory hl]⟩

/-! ### The tick of the hazard -/

/-- With a LOAD in Memory the base of a STORE is its register as Write-Back leaves it (R224, R225). -/
theorem executeSlot_dstVal_of_load {s : State} (hi : Inv s) (hc : Coherent s) (hl : s.slotM.cmd.opcode = .load)
    (hr : readsDst s.slotE.cmd.opcode = true) :
    (executeSlot s).dstVal = readReg (retiredState s) s.slotE.cmd.dstIndex := by
  rw [hc.executeSlot_dstVal hr, operandAt_of_load hi hc hl]

/-- The address of a STORE: its base as Execute holds it, and the instruction level's offset (R141, R142). -/
theorem exResAt_of_store {s : State} (hi : Inv s) (hc : Coherent s) (hs : s.slotE.cmd.opcode = .store) :
    exResAt s = (executeSlot s).dstVal + archOp2 (archAt s) s.slotE.cmd := by
  rw [hc.exResAt_eq, executeSlot_src2Val_eq_archOp2 hi hc (by rw [hs]; rfl), hs]
  rfl

/-- A STORE that moves on writes no register (R190). -/
theorem MovedOn.keeps_completedRegs_of_store {s t : State} (k : MovedOn s t) (f : TickFrame s t)
    (hs : s.slotE.cmd.opcode = .store) : completedRegs t = completedRegs s := by
  rw [k.completes_register f, hs]
  rfl

/-- Settles O50: a LOAD in Memory is no taken branch, so the STORE moves on with what Execute holds for it, in a tick
that computed it and in the retry tick that ends a stall alike. -/
theorem storeBehindLoadCompletesWithTheOldBase : Obligations.StoreBehindLoadCompletesWithTheOldBase := by
  intro s t hi hc hstep ha hl hs _
  obtain ⟨f, kind⟩ := step_kinds hstep
  have hnt : s.memTaken = false := Bool.eq_false_iff.2 fun ht => by
    have hb := hi.takenIsBranch ht
    simp [hl, isBranch] at hb
  have k := kind.movedOn ha hnt
  refine ⟨?cmd, ?address, ?data, k.slotW, ?loaded, k.keeps_completedRegs_of_store f hs⟩
  case cmd => rw [k.slotM, executeSlot_cmd]
  case address =>
    rw [k.memRes, exResAt_of_store hi hc hs, executeSlot_dstVal_of_load hi hc hl (by rw [hs]; rfl),
      readReg_retiredState]
  case data => rw [k.slotM, executeSlot_src1Val_eq_archReg hi hc (by rw [hs]; rfl)]
  case loaded => rw [k.wbVal, memResult, if_pos hl]

end Sys2Proof.Machine
end
